-- ==== Sys2Proof/Word.lean ====
section
/-!
DEFINITION. The value types of the engine (spec/00_scope.md R9, R13: every value is unsigned; spec/10_state.md R17).
-/

namespace Sys2Proof

/-- A memory cell, a general register, a timer: 8 bits, unsigned (R19, R26, R37). -/
abbrev Byte := BitVec 8

/-- The index register, the program counter, a return address, an instruction word: 16 bits (R21, R22, R24, R52). -/
abbrev Word := BitVec 16

/-- The 12-bit address field `nnn` (R53). -/
abbrev Addr12 := BitVec 12

/-- A general register's index, 0 to 15, 15 being VF (R19). -/
abbrev Reg := Fin 16

/-- A row count `n`, 0 to 15 (R53). -/
abbrev RowCount := Fin 16

/-- A key, 0x0 to 0xF (R27). -/
abbrev Key := Fin 16

/-- One display row: bit `col` is the pixel at column `col` (R29). -/
abbrev PixelRow := BitVec 64

/-- VF, the flag register (R20). -/
abbrev regVF : Reg := 15

/-- V0, read implicitly by `Bnnn` (R78). -/
abbrev regV0 : Reg := 0

end Sys2Proof
end

