-- ==== Sys2Proof/Syntax.lean ====
section
/-!
DEFINITION. The 35 instructions of spec/30_encoding.md R56, one constructor per row of spec/opcode_table.json, in the
table's order. Operands are the decoded fields of R53: `x`, `y` register indexes, `kk` a byte, `nnn` a 12-bit address,
`n` a row count.
-/

namespace Sys2Proof

/-- The instruction set (R56). -/
inductive Instr where
  /-- `00E0` (R100) -/
  | cls
  /-- `00EE` (R69) -/
  | ret
  /-- `0000`, recognized only under HALT_ON_ZERO (R70) -/
  | halt
  /-- `1nnn` (R71) -/
  | jp (nnn : Addr12)
  /-- `2nnn` (R72) -/
  | call (nnn : Addr12)
  /-- `3xkk` (R74) -/
  | seVxKk (x : Reg) (kk : Byte)
  /-- `4xkk` (R75) -/
  | sneVxKk (x : Reg) (kk : Byte)
  /-- `5xy0` (R76) -/
  | seVxVy (x y : Reg)
  /-- `6xkk` (R81) -/
  | ldVxKk (x : Reg) (kk : Byte)
  /-- `7xkk` (R82) -/
  | addVxKk (x : Reg) (kk : Byte)
  /-- `8xy0` (R83) -/
  | ldVxVy (x y : Reg)
  /-- `8xy1` (R84) -/
  | orVxVy (x y : Reg)
  /-- `8xy2` (R85) -/
  | andVxVy (x y : Reg)
  /-- `8xy3` (R86) -/
  | xorVxVy (x y : Reg)
  /-- `8xy4` (R87) -/
  | addVxVy (x y : Reg)
  /-- `8xy5` (R88) -/
  | subVxVy (x y : Reg)
  /-- `8xy6`: `y` is encoded and never read (R89) -/
  | shrVx (x y : Reg)
  /-- `8xy7` (R90) -/
  | subnVxVy (x y : Reg)
  /-- `8xyE`: `y` is encoded and never read (R91) -/
  | shlVx (x y : Reg)
  /-- `9xy0` (R77) -/
  | sneVxVy (x y : Reg)
  /-- `Annn` (R94) -/
  | ldI (nnn : Addr12)
  /-- `Bnnn` (R78) -/
  | jpV0 (nnn : Addr12)
  /-- `Cxkk` (R92) -/
  | rnd (x : Reg) (kk : Byte)
  /-- `Dxyn` (R101) -/
  | drw (x y : Reg) (n : RowCount)
  /-- `Ex9E` (R103) -/
  | skp (x : Reg)
  /-- `ExA1` (R104) -/
  | sknp (x : Reg)
  /-- `Fx07` (R105) -/
  | ldVxDt (x : Reg)
  /-- `Fx0A` (R106) -/
  | ldVxK (x : Reg)
  /-- `Fx15` (R108) -/
  | ldDtVx (x : Reg)
  /-- `Fx18` (R109) -/
  | ldStVx (x : Reg)
  /-- `Fx1E` (R95) -/
  | addIVx (x : Reg)
  /-- `Fx29` (R96) -/
  | ldFVx (x : Reg)
  /-- `Fx33` (R97) -/
  | ldBVx (x : Reg)
  /-- `Fx55` (R98) -/
  | ldMemVx (x : Reg)
  /-- `Fx65` (R99) -/
  | ldVxMem (x : Reg)
  deriving DecidableEq, Repr

end Sys2Proof
end

