-- ==== Sys2Proof/Decode.lean ====
section
/-!
DEFINITION. Decoding and encoding (spec/30_encoding.md R52-R57, spec/20_memory.md R42). The decoder is total: it gives one
instruction of R56 or rejects by name.
-/

namespace Sys2Proof

/-! ## The fields of an instruction word (R53) -/

/-- `w[15:12]`, the family selector (R53). -/
def fieldF (w : Word) : BitVec 4 := w.extractLsb' 12 4

/-- `w[11:8]`, a register index (R53). -/
def fieldX (w : Word) : Reg := (w.extractLsb' 8 4).toFin

/-- `w[7:4]`, a register index (R53). -/
def fieldY (w : Word) : Reg := (w.extractLsb' 4 4).toFin

/-- `w[3:0]`, the row count of `Dxyn` (R53). -/
def fieldN (w : Word) : RowCount := (w.extractLsb' 0 4).toFin

/-- `w[3:0]` as the sub-selector of families 5, 8 and 9 (R53, R55). -/
def fieldSub (w : Word) : BitVec 4 := w.extractLsb' 0 4

/-- `w[7:0]`, the 8-bit immediate, and the sub-selector of families E and F (R53, R55). -/
def fieldKK (w : Word) : Byte := w.extractLsb' 0 8

/-- `w[11:0]`, the 12-bit address (R53). -/
def fieldNNN (w : Word) : Addr12 := w.extractLsb' 0 12

/-! ## The decoder (R55): family first, then the sub-selector -/

/-- Family 0: the whole word selects; `0000` is HALT only under HALT_ON_ZERO (R55, R56 rows 1 to 3). -/
def decodeFamily0 (haltOnZero : Bool) (w : Word) : Option Instr :=
  match w with
  | 0x00E0#16 => some .cls
  | 0x00EE#16 => some .ret
  | 0x0000#16 => if haltOnZero then some .halt else none
  | _ => none

/-- Family 8: `n` selects (R55, R56 rows 11 to 19). -/
def decodeFamily8 (w : Word) : Option Instr :=
  match fieldSub w with
  | 0x0#4 => some (.ldVxVy (fieldX w) (fieldY w))
  | 0x1#4 => some (.orVxVy (fieldX w) (fieldY w))
  | 0x2#4 => some (.andVxVy (fieldX w) (fieldY w))
  | 0x3#4 => some (.xorVxVy (fieldX w) (fieldY w))
  | 0x4#4 => some (.addVxVy (fieldX w) (fieldY w))
  | 0x5#4 => some (.subVxVy (fieldX w) (fieldY w))
  | 0x6#4 => some (.shrVx (fieldX w) (fieldY w))
  | 0x7#4 => some (.subnVxVy (fieldX w) (fieldY w))
  | 0xE#4 => some (.shlVx (fieldX w) (fieldY w))
  | _ => none

/-- Family E: `kk` selects (R55, R56 rows 25 and 26). -/
def decodeFamilyE (w : Word) : Option Instr :=
  match fieldKK w with
  | 0x9E#8 => some (.skp (fieldX w))
  | 0xA1#8 => some (.sknp (fieldX w))
  | _ => none

/-- Family F: `kk` selects (R55, R56 rows 27 to 35). -/
def decodeFamilyF (w : Word) : Option Instr :=
  match fieldKK w with
  | 0x07#8 => some (.ldVxDt (fieldX w))
  | 0x0A#8 => some (.ldVxK (fieldX w))
  | 0x15#8 => some (.ldDtVx (fieldX w))
  | 0x18#8 => some (.ldStVx (fieldX w))
  | 0x1E#8 => some (.addIVx (fieldX w))
  | 0x29#8 => some (.ldFVx (fieldX w))
  | 0x33#8 => some (.ldBVx (fieldX w))
  | 0x55#8 => some (.ldMemVx (fieldX w))
  | 0x65#8 => some (.ldVxMem (fieldX w))
  | _ => none

/-- `decode(w)` (R55): the instruction of R56, or none, the word being unrecognized (R57). -/
def decodeWord (haltOnZero : Bool) (w : Word) : Option Instr :=
  match fieldF w with
  | 0x0#4 => decodeFamily0 haltOnZero w
  | 0x1#4 => some (.jp (fieldNNN w))
  | 0x2#4 => some (.call (fieldNNN w))
  | 0x3#4 => some (.seVxKk (fieldX w) (fieldKK w))
  | 0x4#4 => some (.sneVxKk (fieldX w) (fieldKK w))
  | 0x5#4 => if fieldSub w = 0x0#4 then some (.seVxVy (fieldX w) (fieldY w)) else none
  | 0x6#4 => some (.ldVxKk (fieldX w) (fieldKK w))
  | 0x7#4 => some (.addVxKk (fieldX w) (fieldKK w))
  | 0x8#4 => decodeFamily8 w
  | 0x9#4 => if fieldSub w = 0x0#4 then some (.sneVxVy (fieldX w) (fieldY w)) else none
  | 0xA#4 => some (.ldI (fieldNNN w))
  | 0xB#4 => some (.jpV0 (fieldNNN w))
  | 0xC#4 => some (.rnd (fieldX w) (fieldKK w))
  | 0xD#4 => some (.drw (fieldX w) (fieldY w) (fieldN w))
  | 0xE#4 => decodeFamilyE w
  | 0xF#4 => decodeFamilyF w
  | _ => none

/-! ## Bytes (R42, R52) -/

/-- Why bytes are no instruction. -/
inductive DecodeError where
  /-- fewer than the two bytes every instruction has (R52) -/
  | truncated
  /-- the word matches no row of the opcode map (R57) -/
  | unrecognized (w : Word)
  deriving DecidableEq, Repr

/-- `hi || lo`: the byte at the lower address is the high byte (R13, R42). -/
def wordOfBytes (hi lo : Byte) : Word := hi ++ lo

/-- The two bytes of a word, in the order memory holds them (R42). -/
def bytesOfWord (w : Word) : List Byte := [w.extractLsb' 8 8, w.extractLsb' 0 8]

/-- Decode the instruction at the head of a byte sequence; the rest of the bytes comes with it. -/
def decode (haltOnZero : Bool) : List Byte → Except DecodeError (Instr × List Byte)
  | hi :: lo :: rest =>
    match decodeWord haltOnZero (wordOfBytes hi lo) with
    | some i => .ok (i, rest)
    | none => .error (.unrecognized (wordOfBytes hi lo))
  | [] => .error .truncated
  | [_] => .error .truncated

/-! ## The encoder (R53, R56) -/

/-- A word of the layout `F nnn` (R53). -/
def packNNN (f : BitVec 4) (nnn : Addr12) : Word := f ++ nnn

/-- A word of the layout `F x kk` (R53). -/
def packXKK (f : BitVec 4) (x : Reg) (kk : Byte) : Word := f ++ (BitVec.ofFin x : BitVec 4) ++ kk

/-- A word of the layout `F x y n` (R53). -/
def packXYN (f : BitVec 4) (x y : Reg) (n : BitVec 4) : Word :=
  f ++ (BitVec.ofFin x : BitVec 4) ++ (BitVec.ofFin y : BitVec 4) ++ n

/-- The word of an instruction, from the patterns of R56. -/
def encode : Instr → Word
  | .cls => 0x00E0
  | .ret => 0x00EE
  | .halt => 0x0000
  | .jp nnn => packNNN 0x1 nnn
  | .call nnn => packNNN 0x2 nnn
  | .seVxKk x kk => packXKK 0x3 x kk
  | .sneVxKk x kk => packXKK 0x4 x kk
  | .seVxVy x y => packXYN 0x5 x y 0x0
  | .ldVxKk x kk => packXKK 0x6 x kk
  | .addVxKk x kk => packXKK 0x7 x kk
  | .ldVxVy x y => packXYN 0x8 x y 0x0
  | .orVxVy x y => packXYN 0x8 x y 0x1
  | .andVxVy x y => packXYN 0x8 x y 0x2
  | .xorVxVy x y => packXYN 0x8 x y 0x3
  | .addVxVy x y => packXYN 0x8 x y 0x4
  | .subVxVy x y => packXYN 0x8 x y 0x5
  | .shrVx x y => packXYN 0x8 x y 0x6
  | .subnVxVy x y => packXYN 0x8 x y 0x7
  | .shlVx x y => packXYN 0x8 x y 0xE
  | .sneVxVy x y => packXYN 0x9 x y 0x0
  | .ldI nnn => packNNN 0xA nnn
  | .jpV0 nnn => packNNN 0xB nnn
  | .rnd x kk => packXKK 0xC x kk
  | .drw x y n => packXYN 0xD x y (BitVec.ofFin n)
  | .skp x => packXKK 0xE x 0x9E
  | .sknp x => packXKK 0xE x 0xA1
  | .ldVxDt x => packXKK 0xF x 0x07
  | .ldVxK x => packXKK 0xF x 0x0A
  | .ldDtVx x => packXKK 0xF x 0x15
  | .ldStVx x => packXKK 0xF x 0x18
  | .addIVx x => packXKK 0xF x 0x1E
  | .ldFVx x => packXKK 0xF x 0x29
  | .ldBVx x => packXKK 0xF x 0x33
  | .ldMemVx x => packXKK 0xF x 0x55
  | .ldVxMem x => packXKK 0xF x 0x65

/-- The bytes of an instruction, high byte first (R42). -/
def encodeBytes (i : Instr) : List Byte := bytesOfWord (encode i)

/-- A row of the opcode map: a word `w` is the instruction when `w & mask = pattern` (R56). -/
structure OpcodeRow where
  pattern : Word
  mask : Word
  deriving DecidableEq, Repr

/-- The row of the opcode map (R56, columns match and mask) an instruction belongs to. -/
def Instr.row : Instr → OpcodeRow
  | .cls => ⟨0x00E0, 0xFFFF⟩
  | .ret => ⟨0x00EE, 0xFFFF⟩
  | .halt => ⟨0x0000, 0xFFFF⟩
  | .jp _ => ⟨0x1000, 0xF000⟩
  | .call _ => ⟨0x2000, 0xF000⟩
  | .seVxKk _ _ => ⟨0x3000, 0xF000⟩
  | .sneVxKk _ _ => ⟨0x4000, 0xF000⟩
  | .seVxVy _ _ => ⟨0x5000, 0xF00F⟩
  | .ldVxKk _ _ => ⟨0x6000, 0xF000⟩
  | .addVxKk _ _ => ⟨0x7000, 0xF000⟩
  | .ldVxVy _ _ => ⟨0x8000, 0xF00F⟩
  | .orVxVy _ _ => ⟨0x8001, 0xF00F⟩
  | .andVxVy _ _ => ⟨0x8002, 0xF00F⟩
  | .xorVxVy _ _ => ⟨0x8003, 0xF00F⟩
  | .addVxVy _ _ => ⟨0x8004, 0xF00F⟩
  | .subVxVy _ _ => ⟨0x8005, 0xF00F⟩
  | .shrVx _ _ => ⟨0x8006, 0xF00F⟩
  | .subnVxVy _ _ => ⟨0x8007, 0xF00F⟩
  | .shlVx _ _ => ⟨0x800E, 0xF00F⟩
  | .sneVxVy _ _ => ⟨0x9000, 0xF00F⟩
  | .ldI _ => ⟨0xA000, 0xF000⟩
  | .jpV0 _ => ⟨0xB000, 0xF000⟩
  | .rnd _ _ => ⟨0xC000, 0xF000⟩
  | .drw _ _ _ => ⟨0xD000, 0xF000⟩
  | .skp _ => ⟨0xE09E, 0xF0FF⟩
  | .sknp _ => ⟨0xE0A1, 0xF0FF⟩
  | .ldVxDt _ => ⟨0xF007, 0xF0FF⟩
  | .ldVxK _ => ⟨0xF00A, 0xF0FF⟩
  | .ldDtVx _ => ⟨0xF015, 0xF0FF⟩
  | .ldStVx _ => ⟨0xF018, 0xF0FF⟩
  | .addIVx _ => ⟨0xF01E, 0xF0FF⟩
  | .ldFVx _ => ⟨0xF029, 0xF0FF⟩
  | .ldBVx _ => ⟨0xF033, 0xF0FF⟩
  | .ldMemVx _ => ⟨0xF055, 0xF0FF⟩
  | .ldVxMem _ => ⟨0xF065, 0xF0FF⟩

/-! ## The table's words -/

/-- The 16-bit instruction word of a table row's number `w` of `nbits` bits: bits above `nbits` are zero. -/
def tableWord (nbits w : Nat) : Word := BitVec.ofNat 16 (w % 2 ^ nbits)

/-- The instruction the decoder reads from a row's word, laid out as memory holds it. The row HALT stands in the table
under the condition HALT_ON_ZERO = true, so the table is read with that mode on (log 28). -/
def decodeTableWord (nbits w : Nat) : Option Instr :=
  match decode true (bytesOfWord (tableWord nbits w)) with
  | .ok (i, _) => some i
  | .error _ => none

end Sys2Proof
end

