-- ==== Sys2Proof/Config.lean ====
section
/-!
DEFINITION. What is fixed for one engine: the configuration record of spec/00_scope.md R10 and the free values (R11, and
R10's OPEN parameter). The fixed parameters of R9 (4096 bytes, start 0x200, 16 stack entries, 64 x 32 pixels, 16 keys) stand
as the spec's own numbers where they are used. The default values of the configuration stand in
Machine/Defaults.lean.
-/

namespace Sys2Proof

/-- TIMERS_AFTER_END (R10): whether the timer scheduler keeps ticking after a run ends by halt, past-end or error. -/
inductive TimersAfterEnd where
  | continues
  | stops
  deriving DecidableEq, Repr, Inhabited

/-- The configuration (R10), one field per parameter. R18: a parameter of the step, no state; State carries it unchanged
(log 1). -/
structure Config where
  /-- PROG_END: exclusive upper bound of the program region. -/
  progEnd : Nat
  /-- HALT_ON_ZERO: `0000` halts the run instead of being unrecognized. -/
  haltOnZero : Bool
  /-- LENIENT_UNKNOWN: an unrecognized instruction is a logged no-op. -/
  lenientUnknown : Bool
  /-- BEEP_HOOK: a beep callback is registered. -/
  beepHook : Bool
  /-- TIMERS_AFTER_END. -/
  timersAfterEnd : TimersAfterEnd
  /-- FONT: the 80 bytes of 0x000-0x04F at construction. -/
  font : List Byte
  deriving DecidableEq, Repr

/-- R10's bounds: PROG_START + 2 <= PROG_END <= 0x1000, and FONT has 80 bytes. -/
abbrev Config.wf (c : Config) : Prop :=
  0x202 ≤ c.progEnd ∧ c.progEnd ≤ 0x1000 ∧ c.font.length = 80

/-- FREE VALUE (R11, R92, D27; log 4). Draw number `k` of `draw_byte()`: any byte, under no law. No body. -/
opaque Config.randomByte : Nat → Byte

/-- FREE VALUE (R10: OPEN, D17; log 5). TIMERS_AFTER_END of the engine as constructed. No body. -/
opaque Config.timersAfterEndChoice : TimersAfterEnd

end Sys2Proof
end

