-- ==== Sys2Proof/Machine/Defaults.lean ====
section
/-!
DEFINITION. The configuration of the engine as constructed: the defaults of spec/00_scope.md R10.
-/

namespace Sys2Proof.Machine

/-- The default FONT (spec/10_state.md R35). PRESUMED: the spec itself marks the bytes as general knowledge (D26; log 6). -/
def defaultFont : List Byte :=
  [0xF0, 0x90, 0x90, 0x90, 0xF0] ++
  [0x20, 0x60, 0x20, 0x20, 0x70] ++
  [0xF0, 0x10, 0xF0, 0x80, 0xF0] ++
  [0xF0, 0x10, 0xF0, 0x10, 0xF0] ++
  [0x90, 0x90, 0xF0, 0x10, 0x10] ++
  [0xF0, 0x80, 0xF0, 0x10, 0xF0] ++
  [0xF0, 0x80, 0xF0, 0x90, 0xF0] ++
  [0xF0, 0x10, 0x20, 0x40, 0x40] ++
  [0xF0, 0x90, 0xF0, 0x90, 0xF0] ++
  [0xF0, 0x90, 0xF0, 0x10, 0xF0] ++
  [0xF0, 0x90, 0xF0, 0x90, 0x90] ++
  [0xE0, 0x90, 0xE0, 0x90, 0xE0] ++
  [0xF0, 0x80, 0x80, 0x80, 0xF0] ++
  [0xE0, 0x90, 0x90, 0x90, 0xE0] ++
  [0xF0, 0x80, 0xF0, 0x80, 0xF0] ++
  [0xF0, 0x80, 0xF0, 0x80, 0x80]

/-- The configuration's defaults (R10; D3, D16, D25, D26: log 6, log 7). TIMERS_AFTER_END has no default (log 5). -/
def defaultConfig : Config where
  progEnd := 0x1000
  haltOnZero := false
  lenientUnknown := false
  beepHook := false
  timersAfterEnd := Config.timersAfterEndChoice
  font := defaultFont

end Sys2Proof.Machine
end

