-- ==== Sys2Proof/Machine/Events.lean ====
section
/-!
DEFINITION. The names of what the engine reports and of what the host may ask: error kinds and end reasons (spec/10_state.md
R33, spec/60_exceptions.md R110), output events (R34), host operations and queries (R131, R132), and the turns of the
three agents (R119).
-/

namespace Sys2Proof.Machine

/-- The errors that end a run (R110). LoadTooLarge is no such error: it is a reply of `load` (R33, R135). -/
inductive ErrorKind where
  | unknownInstruction
  | memoryOutOfRange
  | stackUnderflow
  | stackOverflow
  deriving DecidableEq, Repr

/-- Why the last run ended (R33). -/
inductive EndReason where
  | stopRequested
  | halted
  | pastProgramEnd
  /-- the error, the address of the offending instruction, and its word -/
  | error (kind : ErrorKind) (addr word : Word)
  deriving DecidableEq, Repr

/-- An output event (R34). -/
inductive Event where
  | beep
  | log (word addr : Word)
  deriving DecidableEq, Repr

/-- The host queries (R132). Indexes and ranges are the caller's numbers, checked by the interface (D24). -/
inductive Query where
  | v (i : Nat)
  | i
  | delay
  | sound
  | memory (start length : Nat)
  | gfx
  | dirty
  | running
  deriving DecidableEq, Repr

/-- The host operations (R131). A key code is the caller's number, checked by the interface (D23). -/
inductive HostOp where
  | load (bytes : List Byte)
  | run
  | stop
  | reset
  | keydown (code : Nat)
  | keyup (code : Nat)
  | query (q : Query)
  deriving DecidableEq, Repr

/-- What a host operation returns to its caller (R132, R135). -/
inductive Reply where
  /-- nothing to report: the operation was done (for `load`: ok) -/
  | done
  /-- the fifth error of R110, returned by `load` only -/
  | loadTooLarge
  | byte (b : Byte)
  | word (w : Word)
  | bytes (bs : List Byte)
  /-- the display's rows, top row first -/
  | pixels (rows : Vector PixelRow 32)
  | flag (b : Bool)
  deriving DecidableEq, Repr

/-- Whose turn it is (R119, R120). -/
inductive Move where
  | instruction
  | tick
  | host (op : HostOp)
  deriving DecidableEq, Repr

end Sys2Proof.Machine
end

