-- ==== Sys2Proof/Machine/State.lean ====
section
/-!
DEFINITION. The engine's state (spec/10_state.md R17), the reasons a step can stop, and the engine as constructed
(spec/10_state.md R36, spec/70_reset_and_hazards.md R133).
-/

namespace Sys2Proof.Machine

/-- Memory as (address, byte) pairs in one canonical form, `Memory.wf` of Ops.lean (log 29). -/
abbrev Memory := List Host.Cell

/-- The state record of R17, and after it four fields of the model's own. -/
structure State where
  /-- memory (R37) -/
  mem : Memory
  /-- V0-VF (R19) -/
  V : Vector Byte 16
  /-- the index register (R21) -/
  I : Word
  /-- the program counter (R22) -/
  pc : Word
  /-- the call stack, head is the top (R24) -/
  stack : List Word
  /-- the delay timer (R26) -/
  DT : Byte
  /-- the sound timer (R26) -/
  ST : Byte
  /-- the key bitmap: bit k = key k pressed (R27) -/
  keys : BitVec 16
  /-- the key-wait marker (R28) -/
  wait : Option Reg
  /-- the display: row `row`'s bit `col` is cell `row * 64 + col` (R29; log 34) -/
  disp : Vector PixelRow 32
  /-- the display's dirty flag (R30) -/
  dirty : Bool
  /-- the instruction scheduler is active (R31) -/
  running : Bool
  /-- the timer scheduler is active (R32) -/
  timersOn : Bool
  /-- why the last run ended (R33) -/
  endReason : Option EndReason
  /-- the output events, oldest first (R34) -/
  out : List Event
  /-- MODEL'S OWN: the configuration, which no step changes (R10, R18; log 1) -/
  cfg : Config
  /-- MODEL'S OWN: the turns to come; when there is none the instruction agent has the turn (R120; log 2) -/
  moves : List Move
  /-- MODEL'S OWN: how many random bytes were drawn (R11, R92; log 4) -/
  draws : Nat
  /-- MODEL'S OWN: what the last host operation returned (R132, R135; log 26) -/
  reply : Option Reply
  deriving DecidableEq, Repr

/-- Why the machine stops with no next state. -/
inductive Fault where
  /-- Raised by a fetch and by the host's `load` when they would touch an address at or above 4096, which does not exist
  (R37). Only a configuration that breaks R10's bounds reaches it (R61). Safe: the model stops (log 27). -/
  | outsideMemory
  deriving DecidableEq, Repr

/-- Why a move has no meaning. -/
inductive Refusal where
  /-- Raised by `exec` for an instruction without a meaning; none is left. Safe. -/
  | notModelled (mnemonic : String)
  /-- Raised by `keydown` and `keyup` for a code outside 0..15: refused at the interface (R127, R131, D23; log 24). Safe. -/
  | keyCodeOutOfRange (code : Nat)
  /-- Raised by the query `v` for an index outside 0..15: refused at the interface (R131, D24; log 24). Safe. -/
  | registerIndexOutOfRange (i : Nat)
  /-- Raised by the query `memory` for a range past 0xFFF: refused at the interface (R131, D24; log 24). Safe. -/
  | memoryRangeOutOfBounds (start length : Nat)
  deriving DecidableEq, Repr

/-- The engine right after construction (R36, R133), with the default configuration. -/
def State.reset : State where
  mem := []
  V := Vector.replicate 16 0
  I := 0
  pc := 0x200
  stack := []
  DT := 0
  ST := 0
  keys := 0
  wait := none
  disp := Vector.replicate 32 0
  dirty := false
  running := false
  timersOn := false
  endReason := none
  out := []
  cfg := defaultConfig
  moves := []
  draws := 0
  reply := none

end Sys2Proof.Machine
end

