-- ==== Sys2Proof/Machine/Ops.lean ====
section
/-!
DEFINITION. The named operations over State: memory (spec/20_memory.md), registers, the program counter, the call stack
(spec/10_state.md R25), the display buffer, output events, and the one way an instruction ends a run or raises an error
(spec/60_exceptions.md R111, R118).
-/

namespace Sys2Proof.Machine

/-! ## Memory (R37, R40) -/

/-- What an address no entry lists reads as: its contents at construction, FONT at 0x000-0x04F and 0 above (R36). -/
def Memory.unlisted (font : List Byte) (a : Nat) : Byte := font.getD a 0

/-- The byte an entry lists for `a`. -/
def Memory.lookup : Memory → Nat → Option Byte
  | [], _ => none
  | (c, b) :: rest, a => if c = a then some b else Memory.lookup rest a

/-- `mem[a]`. -/
def Memory.read (font : List Byte) (m : Memory) (a : Nat) : Byte :=
  (Memory.lookup m a).getD (Memory.unlisted font a)

/-- List `b` at `a`, keeping the addresses rising. -/
def Memory.insert : Memory → Nat → Byte → Memory
  | [], a, b => [(a, b)]
  | (c, d) :: rest, a, b =>
    if a < c then (a, b) :: (c, d) :: rest
    else if a = c then (a, b) :: rest
    else (c, d) :: Memory.insert rest a b

/-- List nothing at `a`. -/
def Memory.erase : Memory → Nat → Memory
  | [], _ => []
  | (c, d) :: rest, a => if c = a then Memory.erase rest a else (c, d) :: Memory.erase rest a

/-- `mem[a] <- b`, in canonical form: the value an unlisted address reads as is not listed. -/
def Memory.write (font : List Byte) (m : Memory) (a : Nat) (b : Byte) : Memory :=
  if b = Memory.unlisted font a then Memory.erase m a else Memory.insert m a b

/-- `mem[a + j] <- bs[j]` for each j (R40). -/
def Memory.writeBytes (font : List Byte) : Memory → Nat → List Byte → Memory
  | m, _, [] => m
  | m, a, b :: bs => Memory.writeBytes font (Memory.write font m a b) (a + 1) bs

/-- `[mem[a], ..., mem[a + n - 1]]` (R40). -/
def Memory.readBytes (font : List Byte) (m : Memory) (a n : Nat) : List Byte :=
  (List.range n).map fun j => Memory.read font m (a + j)

/-- Every listed address is above `low` and below 4096, addresses rise strictly, and no entry equals what an unlisted
address reads as. -/
def Memory.wfAbove (font : List Byte) : Nat → Memory → Bool
  | _, [] => true
  | low, (c, d) :: rest =>
    decide (low ≤ c) && decide (c < 4096) && decide (d ≠ Memory.unlisted font c) && Memory.wfAbove font (c + 1) rest

/-- The canonical form (log 29). -/
def Memory.wf (font : List Byte) (m : Memory) : Bool := Memory.wfAbove font 0 m

/-- `mem[a]` of a state. -/
def State.byteAt (s : State) (a : Nat) : Byte := Memory.read s.cfg.font s.mem a

/-- The span `a .. a + n - 1` exists, or there is no access (R40, R41). -/
abbrev spanExists (a n : Nat) : Prop := n = 0 ∨ a + n ≤ 4096

/-- Put `m` in the place of memory. -/
def State.setMem (s : State) (m : Memory) : State := { s with mem := m }

/-- `MemRead(a, n)`, none where it is not defined (R40). -/
def memRead (a n : Nat) (s : State) : Option (List Byte) :=
  if spanExists a n then some (Memory.readBytes s.cfg.font s.mem a n) else none

/-- `MemWrite(a, length bs, bs)`, none where it is not defined (R40). -/
def memWrite (a : Nat) (bs : List Byte) (s : State) : Option State :=
  if spanExists a bs.length then some (s.setMem (Memory.writeBytes s.cfg.font s.mem a bs)) else none

/-! ## Registers, timers, keys -/

/-- `V[r]` (R14, R19). -/
def State.reg (s : State) (r : Reg) : Byte := s.V[r]

/-- `V[r] <- v` (R14, R19). -/
def State.setReg (s : State) (r : Reg) (v : Byte) : State := { s with V := s.V.set r v }

/-- `I <- v` (R14, R21). -/
def State.setIndex (s : State) (v : Word) : State := { s with I := v }

/-- `DT <- v` (R26). -/
def State.setDelay (s : State) (v : Byte) : State := { s with DT := v }

/-- `ST <- v` (R26). -/
def State.setSound (s : State) (v : Byte) : State := { s with ST := v }

/-- `keys <- v` (R27). -/
def State.setKeys (s : State) (v : BitVec 16) : State := { s with keys := v }

/-- `wait <- v` (R28). -/
def State.setWait (s : State) (v : Option Reg) : State := { s with wait := v }

/-- `V[j] <- b`, `V[j + 1] <- ...`: the loop of R99 from register number `j` on. -/
def loadRegs : Vector Byte 16 → Nat → List Byte → Vector Byte 16
  | V, _, [] => V
  | V, j, b :: bs => loadRegs (V.setIfInBounds j b) (j + 1) bs

/-- `for j in 0..x: V[j] <- bs[j]` (R99). -/
def State.setRegs (s : State) (bs : List Byte) : State := { s with V := loadRegs s.V 0 bs }

/-- `[V[0], ..., V[x]]` (R98). -/
def State.regsUpTo (s : State) (x : Reg) : List Byte := s.V.toList.take (x.val + 1)

/-! ## The program counter (R22, R64) -/

/-- `pc <- target` (R14). -/
def State.setPc (s : State) (target : Word) : State := { s with pc := target }

/-- `pc <- pc + 2`, the advance of a non-control-transferring instruction (R64). -/
def State.advance (s : State) : State := s.setPc (s.pc + 2)

/-- A skip: `pc <- pc + 4` when `cond` holds, `pc <- pc + 2` when not (R73, D6; log 10). -/
def State.skipIf (s : State) (cond : Bool) : State := s.setPc (s.pc + if cond then 4 else 2)

/-! ## The call stack (R24, R25) -/

/-- Put `l` in the place of the call stack. -/
def State.setStack (s : State) (l : List Word) : State := { s with stack := l }

/-- `push(v)`, none where its precondition fails. -/
def State.push (s : State) (v : Word) : Option State :=
  if s.stack.length < 16 then some (s.setStack (v :: s.stack)) else none

/-- `pop()`: the popped value and the state after, none where its precondition fails. -/
def State.pop (s : State) : Option (Word × State) :=
  match s.stack with
  | [] => none
  | v :: rest => some (v, s.setStack rest)

/-! ## The display buffer (R29, R30) -/

/-- `pix(col, row)` (R14, R29), for `col < 64`, `row < 32`. -/
def State.pix (s : State) (col row : Nat) : Bool := (s.disp[row]?.getD 0).getLsbD col

/-- Write the display buffer: every mutation sets the dirty flag (R30). -/
def State.setDisplay (s : State) (d : Vector PixelRow 32) : State := { s with disp := d, dirty := true }

/-! ## Output and draws -/

/-- `emit ev` (R14, R34). -/
def State.emit (s : State) (ev : Event) : State := { s with out := s.out ++ [ev] }

/-- `draw_byte()` (R11, R14): the next free byte (log 4). -/
def State.drawByte (s : State) : Byte := Config.randomByte s.draws

/-- The draw has been taken. -/
def State.countDraw (s : State) : State := { s with draws := s.draws + 1 }

/-! ## The end of a run, and errors (R111, R118) -/

/-- `end_run(reason)` (R118). -/
def endRun (reason : EndReason) (s : State) : State :=
  { s with
    running := false
    endReason := some reason
    timersOn := if s.cfg.timersAfterEnd = .stops then false else s.timersOn }

/-- `raise E` (R111): the instruction has no other effect, `pc` stays at it, and the run ends with the error, the
address and the word. The one way every error is taken. -/
def raiseError (kind : ErrorKind) (word : Word) (s : State) : State := endRun (.error kind s.pc word) s

/-! ## Fetch, and words that are no instruction -/

/-- The boundary check (R61): the two bytes at `pc` do not both lie below PROG_END. -/
def State.pastEnd (s : State) : Bool := decide (s.cfg.progEnd < s.pc.toNat + 2)

/-- `mem[pc] || mem[pc + 1]` (R42, R62), none where a byte does not exist. -/
def fetchWord (s : State) : Option Word :=
  if s.pc.toNat + 2 ≤ 4096 then some (wordOfBytes (s.byteAt s.pc.toNat) (s.byteAt (s.pc.toNat + 1))) else none

/-- An unrecognized instruction (R65): a logged no-op under LENIENT_UNKNOWN, else the error UnknownInstruction. -/
def unrecognized (word : Word) (s : State) : State :=
  if s.cfg.lenientUnknown then (s.emit (.log word s.pc)).advance else raiseError .unknownInstruction word s

end Sys2Proof.Machine
end

