-- ==== Sys2Proof/Machine/Operands.lean ====
section
/-!
DEFINITION. Every computed operand of the instruction set (spec/30_encoding.md R54, spec/45_keys_timers.md R102,
spec/43_index_memory.md R93, R97).
-/

namespace Sys2Proof.Machine

/-- `zext_16(nnn)` (R13, R54). -/
def zext16 (nnn : Addr12) : Word := nnn.setWidth 16

/-- The target of `Bnnn`: `zext_16(nnn) + V[0]`, not reduced (R78). -/
def indexedTarget (nnn : Addr12) (s : State) : Word := zext16 nnn + (s.reg regV0).setWidth 16

/-- The address `Fx29` computes: `V[x] * 5`, of the whole register (R96). -/
def glyphAddress (v : Byte) : Word := v.setWidth 16 * 5

/-- The sum of `Fx1E`: `(I + V[x]) mod 65536` (R95, D12; log 16). -/
def indexSum (v : Byte) (s : State) : Word := s.I + v.setWidth 16

/-- A data access's address: the full value of `I`, never reduced (R40, R93). -/
def dataAddress (s : State) : Nat := s.I.toNat

/-- The origin column `V[x] mod 64` of a draw (R101). -/
def originCol (v : Byte) : Nat := v.toNat % 64

/-- The origin row `V[y] mod 32` of a draw (R101). -/
def originRow (v : Byte) : Nat := v.toNat % 32

/-- `pressed(v)` (R102): the key's bit for a code up to 15, false for any other code (D14; log 18). -/
def pressed (v : Byte) (s : State) : Bool := decide (v.toNat ≤ 15) && s.keys.getLsbD v.toNat

/-- The hundreds, tens and ones digits of a byte (R97). -/
def bcdDigits (v : Byte) : List Byte :=
  [BitVec.ofNat 8 (v.toNat / 100), BitVec.ofNat 8 (v.toNat / 10 % 10), BitVec.ofNat 8 (v.toNat % 10)]

end Sys2Proof.Machine
end

