-- ==== Sys2Proof/Machine/Flags.lean ====
section
/-!
DEFINITION. Every flag computation: VF is the only flag (spec/10_state.md R20, spec/42_alu.md R80).
-/

namespace Sys2Proof.Machine

/-- A flag's value in VF: 1 or 0. -/
def flagByte (b : Bool) : Byte := if b then 1 else 0

/-- Carry of `8xy4`: the integer sum exceeds 255 (R87). -/
def carryFlag (a b : Byte) : Byte := flagByte (decide (a.toNat + b.toNat > 255))

/-- No-borrow of `8xy5` and `8xy7`: the minuend is at least the subtrahend (R88, R90). -/
def noBorrowFlag (minuend subtrahend : Byte) : Byte := flagByte (decide (minuend.toNat ≥ subtrahend.toNat))

/-- The bit `8xy6` shifts out: bit 0 (R89). -/
def shiftedOutRight (v : Byte) : Byte := v &&& 1

/-- The bit `8xyE` shifts out: bit 7 (R91). -/
def shiftedOutLeft (v : Byte) : Byte := (v >>> 7) &&& 1

/-- `V[15] <- flag` (R20). -/
def State.setFlag (s : State) (flag : Byte) : State := s.setReg regVF flag

end Sys2Proof.Machine
end

