-- ==== Sys2Proof/Machine/ControlFlow.lean ====
section
/-!
DEFINITION. Control flow (spec/41_control_flow.md): return, halt, jumps, call, skips.
-/

namespace Sys2Proof.Machine

/-- The outcome of a step of this machine. -/
abbrev Result := Host.Outcome State Fault Refusal

/-- `00EE` RET (R69). -/
def execRet (s : State) : Result :=
  match s.pop with
  | none => .next (raiseError .stackUnderflow (encode .ret) s)
  | some (target, s') => .next (s'.setPc target)

/-- `0000` HALT (R70): `pc` stays (D7; log 11). -/
def execHalt (s : State) : Result := .next (endRun .halted s)

/-- `1nnn` JP (R71). -/
def execJp (nnn : Addr12) (s : State) : Result := .next (s.setPc (zext16 nnn))

/-- `2nnn` CALL (R72). -/
def execCall (nnn : Addr12) (s : State) : Result :=
  match s.push (s.pc + 2) with
  | none => .next (raiseError .stackOverflow (encode (.call nnn)) s)
  | some s' => .next (s'.setPc (zext16 nnn))

/-- `3xkk` SE (R74). -/
def execSeVxKk (x : Reg) (kk : Byte) (s : State) : Result := .next (s.skipIf (s.reg x == kk))

/-- `4xkk` SNE (R75). -/
def execSneVxKk (x : Reg) (kk : Byte) (s : State) : Result := .next (s.skipIf (s.reg x != kk))

/-- `5xy0` SE (R76). -/
def execSeVxVy (x y : Reg) (s : State) : Result := .next (s.skipIf (s.reg x == s.reg y))

/-- `9xy0` SNE (R77). -/
def execSneVxVy (x y : Reg) (s : State) : Result := .next (s.skipIf (s.reg x != s.reg y))

/-- `Bnnn` JP V0 (R78). -/
def execJpV0 (nnn : Addr12) (s : State) : Result := .next (s.setPc (indexedTarget nnn s))

end Sys2Proof.Machine
end

