-- ==== Sys2Proof/Machine/Alu.lean ====
section
/-!
DEFINITION. Register arithmetic and logic (spec/42_alu.md). Statements run in the order the rule writes them, each reading
the registers as the one before left them (spec/00_scope.md R14, D11; log 15).
-/

namespace Sys2Proof.Machine

/-- `V[x] <- v; pc <- pc + 2`. -/
def writeAndAdvance (x : Reg) (v : Byte) (s : State) : Result := .next (s.setReg x v).advance

/-- `V[x] <- v; V[15] <- flag; pc <- pc + 2`: the flag is written last (R87, R88, R90). -/
def writeThenFlag (x : Reg) (v flag : Byte) (s : State) : Result := .next ((s.setReg x v).setFlag flag).advance

/-- `6xkk` LD (R81). -/
def execLdVxKk (x : Reg) (kk : Byte) (s : State) : Result := writeAndAdvance x kk s

/-- `7xkk` ADD (R82): no carry. -/
def execAddVxKk (x : Reg) (kk : Byte) (s : State) : Result := writeAndAdvance x (s.reg x + kk) s

/-- `8xy0` LD (R83). -/
def execLdVxVy (x y : Reg) (s : State) : Result := writeAndAdvance x (s.reg y) s

/-- `8xy1` OR (R84). -/
def execOrVxVy (x y : Reg) (s : State) : Result := writeAndAdvance x (s.reg x ||| s.reg y) s

/-- `8xy2` AND (R85). -/
def execAndVxVy (x y : Reg) (s : State) : Result := writeAndAdvance x (s.reg x &&& s.reg y) s

/-- `8xy3` XOR (R86). -/
def execXorVxVy (x y : Reg) (s : State) : Result := writeAndAdvance x (s.reg x ^^^ s.reg y) s

/-- `8xy4` ADD (R87). -/
def execAddVxVy (x y : Reg) (s : State) : Result :=
  writeThenFlag x (s.reg x + s.reg y) (carryFlag (s.reg x) (s.reg y)) s

/-- `8xy5` SUB (R88). -/
def execSubVxVy (x y : Reg) (s : State) : Result :=
  writeThenFlag x (s.reg x - s.reg y) (noBorrowFlag (s.reg x) (s.reg y)) s

/-- `8xy6` SHR (R89): the flag first, then the shift of `V[x]` as the flag's write left it (D11; log 15). -/
def execShrVx (x _y : Reg) (s : State) : Result :=
  let s' := s.setFlag (shiftedOutRight (s.reg x))
  writeAndAdvance x (s'.reg x >>> 1) s'

/-- `8xy7` SUBN (R90). -/
def execSubnVxVy (x y : Reg) (s : State) : Result :=
  writeThenFlag x (s.reg y - s.reg x) (noBorrowFlag (s.reg y) (s.reg x)) s

/-- `8xyE` SHL (R91): the flag first, then the shift of `V[x]` as the flag's write left it (D11; log 15). -/
def execShlVx (x _y : Reg) (s : State) : Result :=
  let s' := s.setFlag (shiftedOutLeft (s.reg x))
  writeAndAdvance x (s'.reg x <<< 1) s'

/-- `Cxkk` RND (R92): the draw is a free value (log 4). -/
def execRnd (x : Reg) (kk : Byte) (s : State) : Result := writeAndAdvance x (s.drawByte &&& kk) s.countDraw

end Sys2Proof.Machine
end

