-- ==== Sys2Proof/Machine/Display.lean ====
section
/-!
DEFINITION. The display instructions (spec/44_display.md). A draw runs the loops of R101 pixel by pixel over the display
buffer and the collision found so far.
-/

namespace Sys2Proof.Machine

/-- The display buffer during a draw, and whether a set pixel was turned off. -/
structure Canvas where
  disp : Vector PixelRow 32
  collision : Bool
  deriving DecidableEq, Repr

/-- `pix(col, row)` of a buffer. -/
def Canvas.pix (c : Canvas) (col row : Nat) : Bool := (c.disp[row]?.getD 0).getLsbD col

/-- `if pix = 1: collision <- 1`, then `pix <- pix ^ 1` (R101). -/
def Canvas.flip (c : Canvas) (col row : Nat) : Canvas where
  disp := c.disp.setIfInBounds row (c.disp[row]?.getD 0 ^^^ BitVec.twoPow 64 col)
  collision := c.collision || c.pix col row

/-- Bit `7 - w` of a sprite row: bit 7 is the leftmost pixel (R101). -/
def spriteBit (b : Byte) (w : Nat) : Bool := b.getLsbD (7 - w)

/-- The pixel loop of one sprite row: `col <- (X + w) mod 64`, columns wrap (R101, C3; log 14). -/
def Canvas.drawRow (X row : Nat) (b : Byte) (c : Canvas) : Canvas :=
  (List.range 8).foldl (fun c w => if spriteBit b w then c.flip ((X + w) % 64) row else c) c

/-- The row loop from row number `r` on: `row <- (Y + r) mod 32`, rows wrap (R101). -/
def Canvas.drawRows (X Y : Nat) : List Byte → Nat → Canvas → Canvas
  | [], _, c => c
  | b :: bs, r, c => Canvas.drawRows X Y bs (r + 1) (c.drawRow X ((Y + r) % 32) b)

/-- The canvas of a whole draw (R101). -/
def drawSprite (X Y : Nat) (rows : List Byte) (s : State) : Canvas :=
  Canvas.drawRows X Y rows 0 { disp := s.disp, collision := false }

/-- `00E0` CLS (R100). -/
def execCls (s : State) : Result := .next (s.setDisplay (Vector.replicate 32 0)).advance

/-- `Dxyn` DRW (R101). -/
def execDrw (x y : Reg) (n : RowCount) (s : State) : Result :=
  match memRead (dataAddress s) n.val s with
  | none => .next (raiseError .memoryOutOfRange (encode (.drw x y n)) s)
  | some rows =>
    let c := drawSprite (originCol (s.reg x)) (originRow (s.reg y)) rows s
    .next ((s.setDisplay c.disp).setFlag (flagByte c.collision)).advance

end Sys2Proof.Machine
end

