-- ==== Sys2Proof/Machine/IndexMemory.lean ====
section
/-!
DEFINITION. The index register and memory transfer (spec/43_index_memory.md). An access outside memory raises
MemoryOutOfRange before any write (spec/20_memory.md R41, D8; log 9); no access changes `I` (R93, D13; log 17).
-/

namespace Sys2Proof.Machine

/-- `Annn` LD I (R94). -/
def execLdI (nnn : Addr12) (s : State) : Result := .next (s.setIndex (zext16 nnn)).advance

/-- `Fx1E` ADD I (R95): VF is not changed. -/
def execAddIVx (x : Reg) (s : State) : Result := .next (s.setIndex (indexSum (s.reg x) s)).advance

/-- `Fx29` LD F (R96). -/
def execLdFVx (x : Reg) (s : State) : Result := .next (s.setIndex (glyphAddress (s.reg x))).advance

/-- Store `bs` at `I` and advance, or raise MemoryOutOfRange for the instruction `word` (R41). -/
def storeAtIndex (bs : List Byte) (word : Word) (s : State) : Result :=
  match memWrite (dataAddress s) bs s with
  | none => .next (raiseError .memoryOutOfRange word s)
  | some s' => .next s'.advance

/-- `Fx33` LD B (R97). -/
def execLdBVx (x : Reg) (s : State) : Result := storeAtIndex (bcdDigits (s.reg x)) (encode (.ldBVx x)) s

/-- `Fx55` LD [I] (R98). -/
def execLdMemVx (x : Reg) (s : State) : Result := storeAtIndex (s.regsUpTo x) (encode (.ldMemVx x)) s

/-- `Fx65` LD Vx, [I] (R99). -/
def execLdVxMem (x : Reg) (s : State) : Result :=
  match memRead (dataAddress s) (x.val + 1) s with
  | none => .next (raiseError .memoryOutOfRange (encode (.ldVxMem x)) s)
  | some bs => .next (s.setRegs bs).advance

end Sys2Proof.Machine
end

