-- ==== Sys2Proof/Machine/KeysTimers.lean ====
section
/-!
DEFINITION. Keys and timers, the instruction side (spec/45_keys_timers.md).
-/

namespace Sys2Proof.Machine

/-- `Ex9E` SKP (R103). -/
def execSkp (x : Reg) (s : State) : Result := .next (s.skipIf (pressed (s.reg x) s))

/-- `ExA1` SKNP (R104). -/
def execSknp (x : Reg) (s : State) : Result := .next (s.skipIf (!pressed (s.reg x) s))

/-- `Fx07` LD Vx, DT (R105). -/
def execLdVxDt (x : Reg) (s : State) : Result := .next (s.setReg x s.DT).advance

/-- `Fx0A` LD Vx, K (R106): enter the key wait; `pc` is not advanced, and no held key resolves it (D18; log 22). -/
def execLdVxK (x : Reg) (s : State) : Result := .next (s.setWait (some x))

/-- `Fx15` LD DT, Vx (R108). -/
def execLdDtVx (x : Reg) (s : State) : Result := .next (s.setDelay (s.reg x)).advance

/-- `Fx18` LD ST, Vx (R109): a write of 0 does not beep (D16; log 20). -/
def execLdStVx (x : Reg) (s : State) : Result := .next (s.setSound (s.reg x)).advance

end Sys2Proof.Machine
end

