-- ==== Sys2Proof/Machine/HostOps.lean ====
section
/-!
DEFINITION. The timer tick and the host's operations and queries (spec/60_exceptions.md R121, R127-R132,
spec/70_reset_and_hazards.md R134, R135).
-/

namespace Sys2Proof.Machine

/-! ## The timer agent -/

/-- `if t > 0: t <- t - 1`: clamped at zero (R26, R121). -/
def countDown (t : Byte) : Byte := if t = 0 then 0 else t - 1

/-- One tick (R121): both counters, and the beep when ST goes from 1 to 0 with a hook (R122, D16; log 20). -/
def timerTick (s : State) : State :=
  let s' := (s.setDelay (countDown s.DT)).setSound (countDown s.ST)
  if s.ST = 1 ∧ s.cfg.beepHook = true then s'.emit .beep else s'

/-! ## The host's operations -/

/-- `run()` (R129, D22; log 23). -/
def hostRun (s : State) : State :=
  if s.running then s else { s with running := true, timersOn := true, endReason := none }

/-- `stop()` (R130, D17, D19; log 21, log 22). -/
def hostStop (s : State) : State :=
  if s.running then { s with running := false, timersOn := false, wait := none, endReason := some .stopRequested }
  else { s with timersOn := false }

/-- `reset()` (R134, D20; log 22): only `pc` and `wait` change. -/
def hostReset (s : State) : State := (s.setPc 0x200).setWait none

/-- `load(bytes)` (R135, D2; log 25): the state after and the reply. -/
def hostLoad (bytes : List Byte) (s : State) : Host.Outcome (State × Reply) Fault Refusal :=
  if bytes.length > s.cfg.progEnd - 0x200 then .next (s, .loadTooLarge)
  else match memWrite 0x200 bytes s with
    | none => .fault .outsideMemory
    | some s' => .next (s', .done)

/-- `keys[k] <- 1`. -/
def State.pressKey (s : State) (k : Key) : State := s.setKeys (s.keys ||| BitVec.twoPow 16 k)

/-- `keys[k] <- 0`. -/
def State.releaseKey (s : State) (k : Key) : State := s.setKeys (s.keys &&& ~~~ BitVec.twoPow 16 k)

/-- `keydown(k)` (R127): set the bit; resolve a pending wait (D18; log 22). -/
def hostKeydown (k : Key) (s : State) : State :=
  match s.wait with
  | none => s.pressKey k
  | some r => ((s.pressKey k).setReg r (BitVec.ofNat 8 k.val)).advance.setWait none

/-- `keyup(k)` (R128). -/
def hostKeyup (k : Key) (s : State) : State := s.releaseKey k

/-- A host query (R132): the state after, which is the state before but for `gfx`, and the answer. -/
def hostQuery (q : Query) (s : State) : Host.Outcome (State × Reply) Fault Refusal :=
  match q with
  | .v i => if h : i < 16 then .next (s, .byte (s.reg ⟨i, h⟩)) else .refused (.registerIndexOutOfRange i)
  | .i => .next (s, .word s.I)
  | .delay => .next (s, .byte s.DT)
  | .sound => .next (s, .byte s.ST)
  | .memory start length =>
    if start + length ≤ 4096 then .next (s, .bytes (Memory.readBytes s.cfg.font s.mem start length))
    else .refused (.memoryRangeOutOfBounds start length)
  | .gfx => .next ({ s with dirty := false }, .pixels s.disp)
  | .dirty => .next (s, .flag s.dirty)
  | .running => .next (s, .flag s.running)

/-- A host operation (R131): the state after and what it returns. -/
def hostOp (op : HostOp) (s : State) : Host.Outcome (State × Reply) Fault Refusal :=
  match op with
  | .load bytes => hostLoad bytes s
  | .run => .next (hostRun s, .done)
  | .stop => .next (hostStop s, .done)
  | .reset => .next (hostReset s, .done)
  | .keydown code =>
    if h : code < 16 then .next (hostKeydown ⟨code, h⟩ s, .done) else .refused (.keyCodeOutOfRange code)
  | .keyup code =>
    if h : code < 16 then .next (hostKeyup ⟨code, h⟩ s, .done) else .refused (.keyCodeOutOfRange code)
  | .query q => hostQuery q s

end Sys2Proof.Machine
end

