-- ==== Sys2Proof/Machine/Agents.lean ====
section
/-!
DEFINITION. One step of each agent (spec/40_dispatch.md R60-R66, spec/60_exceptions.md R119-R121, R131), and whose turn it
is (R120; log 2).
-/

namespace Sys2Proof.Machine

/-- The instruction agent has a step exactly when `running = true` and `wait = none` (R60). -/
def State.instructionEnabled (s : State) : Bool := s.running && s.wait.isNone

/-- The instruction agent's turn (R66): boundary check, fetch, decode, execute. Where it has no step, nothing changes
(R60; log 3). -/
def instructionStep (s : State) : Result :=
  if s.instructionEnabled then
    if s.pastEnd then .next (endRun .pastProgramEnd s)
    else
      match fetchWord s with
      | none => .fault .outsideMemory
      | some w =>
        match decodeWord s.cfg.haltOnZero w with
        | some i => exec i s
        | none => .next (unrecognized w s)
  else .next s

/-- The timer agent's turn (R121): a tick when `timersOn = true`. Where it has no step, nothing changes (log 3). -/
def timerStep (s : State) : Result := .next (if s.timersOn then timerTick s else s)

/-- The host's turn (R131): the operation, and its reply kept in `reply` (log 26). -/
def hostStep (op : HostOp) (s : State) : Result :=
  match hostOp op s with
  | .next (s', r) => .next { s' with reply := some r }
  | .fault f => .fault f
  | .refused r => .refused r

/-- The turn now, and the state with that turn taken off `moves`: with no turn pending it is the instruction agent's
(R120; log 2). -/
def State.takeTurn (s : State) : Move × State :=
  match s.moves with
  | [] => (.instruction, s)
  | m :: rest => (m, { s with moves := rest })

/-- One step of the agent whose turn it is. -/
def agentStep (m : Move) (s : State) : Result :=
  match m with
  | .instruction => instructionStep s
  | .tick => timerStep s
  | .host op => hostStep op s

end Sys2Proof.Machine
end

