-- ==== Sys2Proof/Machine/Step.lean ====
section
/-!
DEFINITION. The engine's step: the agent whose turn it is takes one atomic step (spec/20_memory.md R46,
spec/60_exceptions.md R120).
-/

namespace Sys2Proof.Machine

/-- One atomic step of the engine. -/
def step (s : State) : Host.Outcome State Fault Refusal := agentStep s.takeTurn.1 s.takeTurn.2

/-- `s` with the instruction word `w` stored where the next step fetches, and all that its running takes (log 28): the
run is started as `run()` starts it (R129), no key wait is pending, the turn is the instruction agent's, a `pc` past the
end of the program region is rewound to PROG_START, and HALT_ON_ZERO is on where the word is `0000`. -/
def State.withFetchWord (s : State) (nbits w : Nat) : State :=
  let word := tableWord nbits w
  let started := (hostRun s).setWait none
  let placed := if started.pastEnd then started.setPc (0x200) else started
  { placed with
    mem := Memory.writeBytes placed.cfg.font placed.mem placed.pc.toNat (bytesOfWord word)
    cfg := { placed.cfg with haltOnZero := placed.cfg.haltOnZero || decide (word = 0) }
    moves := .instruction :: placed.moves }

end Sys2Proof.Machine
end

