-- ==== Sys2Proof/Safety.lean ====
section
/-!
DEFINITION. What the claims are written in: the frame of a step (which parts of the state it leaves alone), the invariant
of the engine, a safe step, and runs of instructions and of turns.
-/

namespace Sys2Proof.Machine

/-! ## Frames -/

/-- A part of the state other than the program counter, the configuration, the turns and the last reply. -/
inductive Part where
  | reg (r : Reg)
  | index
  | stack
  | delay
  | sound
  | keys
  | wait
  | display
  | dirty
  | running
  | timersOn
  | endReason
  | out
  | memory
  | draws
  deriving DecidableEq, Repr

/-- Every part of the state but those `written` names is the same after as before; the program counter may differ. The
configuration, the turns to come and the last host reply never differ. Memory is compared through the read of one byte. -/
structure Frame (written : List Part) (s t : State) : Prop where
  reg : ∀ r, Part.reg r ∉ written → t.reg r = s.reg r
  index : Part.index ∉ written → t.I = s.I
  stack : Part.stack ∉ written → t.stack = s.stack
  delay : Part.delay ∉ written → t.DT = s.DT
  sound : Part.sound ∉ written → t.ST = s.ST
  keys : Part.keys ∉ written → t.keys = s.keys
  wait : Part.wait ∉ written → t.wait = s.wait
  display : Part.display ∉ written → t.disp = s.disp
  dirty : Part.dirty ∉ written → t.dirty = s.dirty
  running : Part.running ∉ written → t.running = s.running
  timersOn : Part.timersOn ∉ written → t.timersOn = s.timersOn
  endReason : Part.endReason ∉ written → t.endReason = s.endReason
  out : Part.out ∉ written → t.out = s.out
  memory : Part.memory ∉ written → ∀ a, t.byteAt a = s.byteAt a
  draws : Part.draws ∉ written → t.draws = s.draws
  cfg : t.cfg = s.cfg
  moves : t.moves = s.moves
  reply : t.reply = s.reply

/-- The registers `V[0], ..., V[x]` as parts. -/
def regsTo (x : Reg) : List Part := (List.finRange 16).filterMap fun r => if r ≤ x then some (Part.reg r) else none

/-- The run of `s` has ended in `t` for `reason` and nothing else has changed (R111, R118): not even `pc`. -/
structure EndedBy (reason : EndReason) (s t : State) : Prop where
  frame : Frame [.running, .timersOn, .endReason] s t
  pc : t.pc = s.pc
  running : t.running = false
  endReason : t.endReason = some reason
  timersOn : t.timersOn = (if s.cfg.timersAfterEnd = .stops then false else s.timersOn)

/-- What an error writes: the lifecycle fields of R118. -/
def lifecycleParts : List Part := [.running, .timersOn, .endReason]

/-- The parts of the state an instruction may write, `pc` apart, as the rules of 10_state.md name its writers: `V` and VF
(R19, R20), `I` (R21), the stack (R24), the timers (R26), the key bitmap (R27: none), the key-wait marker (R28), the
display and its dirty flag (R29, R30), and memory (R44); the lifecycle fields where it can end the run (R70, R110). -/
def mayWrite : Instr → List Part
  | .cls => [.display, .dirty]
  | .ret => .stack :: lifecycleParts
  | .halt => lifecycleParts
  | .jp _ => []
  | .call _ => .stack :: lifecycleParts
  | .seVxKk _ _ => []
  | .sneVxKk _ _ => []
  | .seVxVy _ _ => []
  | .ldVxKk x _ => [.reg x]
  | .addVxKk x _ => [.reg x]
  | .ldVxVy x _ => [.reg x]
  | .orVxVy x _ => [.reg x]
  | .andVxVy x _ => [.reg x]
  | .xorVxVy x _ => [.reg x]
  | .addVxVy x _ => [.reg x, .reg regVF]
  | .subVxVy x _ => [.reg x, .reg regVF]
  | .shrVx x _ => [.reg x, .reg regVF]
  | .subnVxVy x _ => [.reg x, .reg regVF]
  | .shlVx x _ => [.reg x, .reg regVF]
  | .sneVxVy _ _ => []
  | .ldI _ => [.index]
  | .jpV0 _ => []
  | .rnd x _ => [.reg x, .draws]
  | .drw _ _ _ => .display :: .dirty :: .reg regVF :: lifecycleParts
  | .skp _ => []
  | .sknp _ => []
  | .ldVxDt x => [.reg x]
  | .ldVxK _ => [.wait]
  | .ldDtVx _ => [.delay]
  | .ldStVx _ => [.sound]
  | .addIVx _ => [.index]
  | .ldFVx _ => [.index]
  | .ldBVx _ => .memory :: lifecycleParts
  | .ldMemVx _ => .memory :: lifecycleParts
  | .ldVxMem x => regsTo x ++ lifecycleParts

/-! ## The invariant -/

/-- What every step keeps, whatever the turns are. -/
structure Inv (s : State) : Prop where
  /-- the configuration obeys R10 -/
  cfg : s.cfg.wf
  /-- memory is in canonical form -/
  mem : Memory.wf s.cfg.font s.mem = true
  /-- the call stack holds at most 16 entries (R24) -/
  stackLength : s.stack.length ≤ 16
  /-- a return address is at most 0x1000 (R23) -/
  stackEntries : ∀ v ∈ s.stack, v.toNat ≤ 0x1000
  /-- `pc` never exceeds 0x10FE (R23) -/
  pc : s.pc.toNat ≤ 0x10FE
  /-- a key wait is pending only in a run (R28), -/
  waitRunning : s.wait ≠ none → s.running = true
  /-- and at an instruction inside the program region (R61, R106) -/
  waitPc : s.wait ≠ none → s.pc.toNat + 2 ≤ s.cfg.progEnd
  /-- no end reason is recorded while a run is in progress (R33) -/
  noReason : s.running = true → s.endReason = none
  /-- the timers are on while a run is in progress (R129, R130, R118) -/
  timers : s.running = true → s.timersOn = true

/-- A step is safe when the machine does not stop with a fault. -/
def SafeStep (s : State) : Prop := ∀ f, step s ≠ .fault f

/-- A host operation the interface accepts (R131): a key code, a register index, a memory range in bounds. -/
def HostOp.inBounds : HostOp → Bool
  | .load _ => true
  | .run => true
  | .stop => true
  | .reset => true
  | .keydown code => decide (code < 16)
  | .keyup code => decide (code < 16)
  | .query (.v i) => decide (i < 16)
  | .query (.memory start length) => decide (start + length ≤ 4096)
  | .query .i => true
  | .query .delay => true
  | .query .sound => true
  | .query .gfx => true
  | .query .dirty => true
  | .query .running => true

/-- A move the interface accepts. -/
def Move.inBounds : Move → Bool
  | .instruction => true
  | .tick => true
  | .host op => op.inBounds

/-! ## Runs -/

/-- Execute instructions one after another, each at the `pc` the one before left (no fetch). -/
def execAll : List Instr → State → Host.Outcome State Fault Refusal
  | [], s => .next s
  | i :: rest, s =>
    match exec i s with
    | .next t => execAll rest t
    | .fault f => .fault f
    | .refused r => .refused r

/-- Take the given turns one after another. -/
def takeTurns : List Move → State → Host.Outcome State Fault Refusal
  | [], s => .next s
  | m :: rest, s =>
    match agentStep m s with
    | .next t => takeTurns rest t
    | .fault f => .fault f
    | .refused r => .refused r

/-! ## Drawing, in closed form -/

/-- The sprite `rows` drawn at origin (X, Y) has a set bit on the pixel (col, row), positions wrapping (R101). -/
def SpriteCovers (X Y : Nat) (rows : List Byte) (col row : Nat) : Prop :=
  ∃ r w, r < rows.length ∧ w < 8 ∧ (Y + r) % 32 = row ∧ (X + w) % 64 = col ∧ spriteBit (rows.getD r 0) w = true

end Sys2Proof.Machine
end

