-- ==== Sys2Proof/Certificates/Slice0/Obligations.lean ====
section
/-!
DEFINITION. The statements for the provers. Each says which rule of spec/ it formalises; where it rests on a decision the
spec marks as its own (D<n>) or on a convention of the model (log <n>), it says so.
-/

open Sys2Proof Sys2Proof.Machine

/-! ## Encoding and decoding (30_encoding.md) -/

/-- Every instruction that exists under the configuration decodes from its own word, and from its own bytes whatever
follows them, with every operand at every value (R42, R53-R56). -/
def Obligations.EncodedInstructionsDecodeBack : Prop :=
  ∀ (haltOnZero : Bool) (i : Instr), i.wellFormed haltOnZero = true →
    decodeWord haltOnZero (encode i) = some i ∧
      ∀ rest, decode haltOnZero (encodeBytes i ++ rest) = .ok (i, rest)

/-- A word that decodes is the word of the instruction it decodes to, and that instruction exists under the configuration:
no word has two spellings and no bit is dropped (R53-R56). -/
def Obligations.DecodedWordsEncodeBack : Prop :=
  ∀ (haltOnZero : Bool) (w : Word) (i : Instr), decodeWord haltOnZero w = some i →
    encode i = w ∧ i.wellFormed haltOnZero = true

/-- The opcode map decides every word: a decoded word matches its instruction's row under the row's mask, and a word that
matches the row of an instruction that exists decodes to an instruction of that very row, so no two rows overlap (R55, R56). -/
def Obligations.OpcodeMapDecidesEveryWord : Prop :=
  (∀ (haltOnZero : Bool) (w : Word) (i : Instr), decodeWord haltOnZero w = some i → w &&& i.row.mask = i.row.pattern) ∧
    (∀ (haltOnZero : Bool) (w : Word) (j : Instr), j.wellFormed haltOnZero = true → w &&& j.row.mask = j.row.pattern →
      ∃ i, decodeWord haltOnZero w = some i ∧ i.row = j.row)

/-- The unrecognized words are exactly those of R57's table, family by family. -/
def Obligations.UnrecognizedWordsAreTheListedOnes : Prop :=
  ∀ (haltOnZero : Bool) (w : Word),
    decodeWord haltOnZero w = none ↔
      (w.toNat < 0x1000 ∧ w.toNat ≠ 0x00E0 ∧ w.toNat ≠ 0x00EE ∧ (w.toNat ≠ 0 ∨ haltOnZero = false)) ∨
      (w.toNat / 0x1000 = 0x5 ∧ w.toNat % 16 ≠ 0) ∨
      (w.toNat / 0x1000 = 0x8 ∧ w.toNat % 16 ∈ [0x8, 0x9, 0xA, 0xB, 0xC, 0xD, 0xF]) ∨
      (w.toNat / 0x1000 = 0x9 ∧ w.toNat % 16 ≠ 0) ∨
      (w.toNat / 0x1000 = 0xE ∧ w.toNat % 256 ∉ [0x9E, 0xA1]) ∨
      (w.toNat / 0x1000 = 0xF ∧ w.toNat % 256 ∉ [0x07, 0x0A, 0x15, 0x18, 0x1E, 0x29, 0x33, 0x55, 0x65])

/-- Words written out bit by bit from the encodings of R53 and R56 decode to the instructions they stand for, at least one
for every family 0 to F; `0000` is HALT exactly under HALT_ON_ZERO. -/
def Obligations.WordsFromTheOpcodeMapDecode : Prop :=
  decodeWord false 0b0000000011100000 = some .cls ∧
  decodeWord false 0b0000000011101110 = some .ret ∧
  decodeWord true 0b0000000000000000 = some .halt ∧
  decodeWord false 0b0000000000000000 = none ∧
  decodeWord false 0b0001001000110100 = some (.jp 0x234) ∧
  decodeWord false 0b0010001100000000 = some (.call 0x300) ∧
  decodeWord false 0b0011001101000010 = some (.seVxKk 3 0x42) ∧
  decodeWord false 0b0100001101000010 = some (.sneVxKk 3 0x42) ∧
  decodeWord false 0b0101000100100000 = some (.seVxVy 1 2) ∧
  decodeWord false 0b0101000100100001 = none ∧
  decodeWord false 0b0110101000010010 = some (.ldVxKk 10 0x12) ∧
  decodeWord false 0b0111001000000011 = some (.addVxKk 2 0x03) ∧
  decodeWord false 0b1000001000110101 = some (.subVxVy 2 3) ∧
  decodeWord false 0b1001000100100000 = some (.sneVxVy 1 2) ∧
  decodeWord false 0b1010001100000000 = some (.ldI 0x300) ∧
  decodeWord false 0b1011001011110000 = some (.jpV0 0x2F0) ∧
  decodeWord false 0b1100010000001111 = some (.rnd 4 0x0F) ∧
  decodeWord false 0b1101000000010011 = some (.drw 0 1 3) ∧
  decodeWord false 0b1110000110011110 = some (.skp 1) ∧
  decodeWord false 0b1111010100110011 = some (.ldBVx 5) ∧
  decode false [0b01101010, 0b00010010] = .ok (.ldVxKk 10 0x12, [])

/-! ## The step (40_dispatch.md) -/

/-- When the turn is the instruction agent's, it has a step, the two bytes at `pc` lie in the program region and decode to
an instruction, the engine's step is that instruction's execution, the turn being taken off `moves` first (R60-R63, R66).
That the turn stands in `moves` is the model's convention (log 2); that the region's bound is the one comparison and an odd
or low `pc` fetches as any other is D4 and D5 (log 12). -/
def Obligations.StepRunsTheDecodedInstruction : Prop :=
  ∀ (s : State) (i : Instr), s.running = true → s.wait = none → s.pc.toNat + 2 ≤ s.cfg.progEnd → s.cfg.progEnd ≤ 4096 →
    decodeWord s.cfg.haltOnZero (wordOfBytes (s.byteAt s.pc.toNat) (s.byteAt (s.pc.toNat + 1))) = some i →
      (s.moves = [] → step s = exec i s) ∧
      (∀ rest, s.moves = .instruction :: rest → step s = exec i { s with moves := rest })

/-- Each step is one step of the agent whose turn stands first in `moves`, that turn being taken off; with no turn pending
it is the instruction agent's (R46, R119, R120; the form is the model's, log 2). -/
def Obligations.TurnsAreTakenInOrder : Prop :=
  ∀ (s : State), (s.moves = [] → step s = agentStep .instruction s) ∧
    (∀ m rest, s.moves = m :: rest → step s = agentStep m { s with moves := rest })

/-- With no two bytes left below PROG_END the instruction agent fetches nothing and the run ends cleanly: PastProgramEnd,
nothing else changed (R61, R118; the comparison is the spec's decision D4, log 12). -/
def Obligations.PastTheEndTheRunEndsCleanly : Prop :=
  ∀ (s : State), s.running = true → s.wait = none → s.cfg.progEnd < s.pc.toNat + 2 →
    ∃ t, agentStep .instruction s = .next t ∧ EndedBy .pastProgramEnd s t

/-- An unrecognized word raises UnknownInstruction with its address and word, and nothing else changes; under
LENIENT_UNKNOWN it is logged and `pc` advances by 2, and nothing else changes (R57, R65; precise errors are D8, log 9; the log's content is D9,
log 13). -/
def Obligations.UnrecognizedWordsRaiseOrAreLogged : Prop :=
  ∀ (s : State) (w : Word), s.running = true → s.wait = none → s.pc.toNat + 2 ≤ s.cfg.progEnd → s.cfg.progEnd ≤ 4096 →
    w = wordOfBytes (s.byteAt s.pc.toNat) (s.byteAt (s.pc.toNat + 1)) → decodeWord s.cfg.haltOnZero w = none →
      (s.cfg.lenientUnknown = false →
        ∃ t, agentStep .instruction s = .next t ∧ EndedBy (.error .unknownInstruction s.pc w) s t) ∧
      (s.cfg.lenientUnknown = true →
        ∃ t, agentStep .instruction s = .next t ∧ t.out = s.out ++ [.log w s.pc] ∧ t.pc = s.pc + 2 ∧ Frame [.out] s t)

/-- An agent that has no step (R60: not running, or waiting for a key; R121: the timers are off) leaves the state as it is
on its turn. That its turn passes so is the model's choice (log 3). -/
def Obligations.DisabledAgentsChangeNothing : Prop :=
  (∀ (s : State), s.running = false → agentStep .instruction s = .next s) ∧
  (∀ (s : State) (r : Reg), s.wait = some r → agentStep .instruction s = .next s) ∧
  (∀ (s : State), s.timersOn = false → agentStep .tick s = .next s)

/-- Whatever instruction runs, when it ends a run in progress nothing else of it happens: only the lifecycle fields change,
`pc` stays at the instruction, and the reason is a halt or an error with the instruction's own address and word
(R111, R113, R118). That an error is precise is the spec's decision D8 (log 9), that `pc` stays at a HALT is D7 (log 11), and
the word an error records is the instruction's encoding (log 31). -/
def Obligations.RunEndingInstructionsChangeNothingElse : Prop :=
  ∀ (i : Instr) (s t : State), exec i s = .next t → s.running = true → t.running = false →
    ∃ reason, EndedBy reason s t ∧
      (reason = .halted ∨ reason = .error .memoryOutOfRange s.pc (encode i) ∨
        reason = .error .stackUnderflow s.pc (encode i) ∨ reason = .error .stackOverflow s.pc (encode i))

/-- Every instruction completes in a next state and writes only the parts the rules name as its own (`mayWrite`): `V` and
VF, `I`, the stack, the timers, the key-wait marker, the display and memory change by no other instruction, and the key
bitmap and the output events by none (R19-R22, R24, R26-R30, R34, R44, R93). That a memory access leaves `I` is D13 (log 17), that an
instruction ending the run writes the lifecycle fields is R118, and the count of draws is the model's own (log 4, log 32). -/
def Obligations.InstructionsWriteOnlyTheirParts : Prop :=
  ∀ (i : Instr) (s : State), ∃ t, exec i s = .next t ∧ Frame (mayWrite i) s t

/-- No step changes the configuration, takes back an output event, or takes back a draw (R18, R34; log 1, log 4). -/
def Obligations.StepsKeepConfigurationAndGrowOutput : Prop :=
  ∀ (s t : State), step s = .next t → t.cfg = s.cfg ∧ s.out <+: t.out ∧ s.draws ≤ t.draws

/-! ## Construction and the invariant (10_state.md, 70_reset_and_hazards.md) -/

/-- The engine as constructed (R36, R133): memory zero but for FONT at 0x000-0x04F, registers, stack, timers, keys, display
and output empty, no wait, not running. `pc` = 0x200 is conflict C1 and D1 (log 8), `endReason` and `out` D30 (log 33); the
font's bytes are PRESUMED and not stated here (log 6). -/
def Obligations.ConstructionState : Prop :=
  State.reset.cfg.wf ∧
  (∀ a, a < 4096 → State.reset.byteAt a = if a < 80 then State.reset.cfg.font.getD a 0 else 0) ∧
  (∀ r, State.reset.reg r = 0) ∧ State.reset.I = 0 ∧ State.reset.pc = 0x200 ∧ State.reset.stack = [] ∧
  State.reset.DT = 0 ∧ State.reset.ST = 0 ∧ State.reset.keys = 0 ∧ State.reset.wait = none ∧
  (∀ col row, col < 64 → row < 32 → State.reset.pix col row = false) ∧ State.reset.dirty = false ∧
  State.reset.running = false ∧ State.reset.timersOn = false ∧ State.reset.endReason = none ∧ State.reset.out = []

/-- The invariant holds of the engine as constructed. Its clause on memory's canonical form is the model's own (log 29,
DESIGN CHOICE); `pc` and the configuration are those of D1 and of the defaults (log 8, log 7), the end reason is D30 (log 33). -/
def Obligations.ConstructionMeetsTheInvariant : Prop := Inv State.reset

/-- Every step of every agent keeps the invariant, from every state that has it: a configuration within R10, a stack of at
most 16 entries (R24), no end reason during a run (R33), and four clauses that are no plain rule of the spec: memory's
canonical form, which is the model's own (log 29, DESIGN CHOICE); return addresses of at most 0x1000 and `pc` of at most
0x10FE, which the spec infers (R23), the bound of a fetch being D4 (log 12); a key wait only in a run, which the spec infers
(R28), and at an instruction inside the program region, both resting on D19 and D20 (log 22); timers on during a run, which
rests on D17 (log 21). -/
def Obligations.EveryStepKeepsTheInvariant : Prop :=
  ∀ (s t : State), Inv s → step s = .next t → Inv t

/-- Under the invariant no step faults; a move the interface accepts is answered with a next state, and a host request out
of its bounds is refused (R61, R111, R131; D23, D24, log 24, log 27). Where the turn is an agent's that has no step (not
running, in a key wait, the timers off), the spec has no step (R60, R121); that the model's turn passes in a next state, the
state unchanged, is the model's choice (log 3, DESIGN CHOICE), and so is the order of the turns (log 2). That an error is a
next state of R111's form is D8 (log 9). -/
def Obligations.NoStepFaultsUnderTheInvariant : Prop :=
  ∀ (s : State), Inv s →
    SafeStep s ∧ (s.takeTurn.1.inBounds = true → ∃ t, step s = .next t) ∧
      (s.takeTurn.1.inBounds = false → ∃ r, step s = .refused r)

/-! ## Control flow (41_control_flow.md) -/

/-- RET (R69) pops the return address into `pc`, with no further advance; on an empty stack it raises StackUnderflow and
nothing else changes. The address popped is the one the matching CALL pushed, that call's address + 2. What raising the
error records and leaves is the spec's decision D8 (log 9). -/
def Obligations.ReturnPopsTheReturnAddress : Prop :=
  (∀ (s : State) (v : Word) (rest : List Word), s.stack = v :: rest →
    ∃ t, exec .ret s = .next t ∧ t.pc = v ∧ t.stack = rest ∧ Frame [.stack] s t) ∧
  (∀ (s : State), s.stack = [] →
    ∃ t, exec .ret s = .next t ∧ EndedBy (.error .stackUnderflow s.pc 0x00EE) s t) ∧
  (∀ (s : State) (nnn : Addr12), s.stack.length < 16 →
    ∃ t u, exec (.call nnn) s = .next t ∧ exec .ret t = .next u ∧ u.pc = s.pc + 2 ∧ u.stack = s.stack)

/-- CALL (R72) pushes the address of the instruction after it and jumps; with 16 return addresses on the stack it raises
StackOverflow and nothing else changes. Where the call lies in the program region, the pushed address is the call's own
plus 2 and at most 0x1000. What raising the error records and leaves is the spec's decision D8 (log 9), the recorded word
being the call's encoding (log 31); the bound 0x1000 is an inference the spec marks as its own (R23). -/
def Obligations.CallPushesTheReturnAddress : Prop :=
  ∀ (s : State) (nnn : Addr12),
    (s.stack.length < 16 →
      ∃ t, exec (.call nnn) s = .next t ∧ t.stack = (s.pc + 2) :: s.stack ∧ t.pc.toNat = nnn.toNat ∧ Frame [.stack] s t ∧
        (s.cfg.wf → s.pc.toNat + 2 ≤ s.cfg.progEnd →
          (s.pc + 2).toNat = s.pc.toNat + 2 ∧ (s.pc + 2).toNat ≤ 0x1000)) ∧
    (s.stack.length = 16 →
      ∃ t, exec (.call nnn) s = .next t ∧
        EndedBy (.error .stackOverflow s.pc (BitVec.ofNat 16 (0x2000 + nnn.toNat))) s t)

/-- Stack discipline (R79): N nested calls followed by N returns come back to the instruction after the first call, with the
stack, every register and everything else as before, as long as the N return addresses fit on the stack. -/
def Obligations.NestedCallsThenReturnsComeBack : Prop :=
  ∀ (s : State) (targets : List Addr12), targets ≠ [] → s.stack.length + targets.length ≤ 16 →
    ∃ t, execAll (targets.map Instr.call ++ List.replicate targets.length Instr.ret) s = .next t ∧
      t.pc = s.pc + 2 ∧ t.stack = s.stack ∧ Frame [] s t

/-- HALT ends the run with reason Halted and nothing else changes (R70, R118). That `pc` stays at the `0000` is the spec's
decision D7 (log 11); that the meaning does not test HALT_ON_ZERO again, so that this holds with the mode off too, is the
model's choice (log 35, DESIGN CHOICE). -/
def Obligations.HaltEndsTheRun : Prop :=
  ∀ (s : State), ∃ t, exec .halt s = .next t ∧ EndedBy .halted s t

/-- JP sets `pc` to the zero-extended target, any of them (R71; odd and low targets: D5, log 12). -/
def Obligations.JumpGoesToItsTarget : Prop :=
  ∀ (s : State) (nnn : Addr12), ∃ t, exec (.jp nnn) s = .next t ∧ t.pc.toNat = nnn.toNat ∧ Frame [] s t

/-- JP V0 (R78) sets `pc` to the integer sum of the target and V0, not reduced modulo 4096, whatever the x nibble of the
target is; a target past the end of the program region ends the run at the next boundary, by the comparison that is the
spec's decision D4 (log 12). -/
def Obligations.IndexedJumpAddsV0 : Prop :=
  ∀ (s : State) (nnn : Addr12),
    ∃ t, exec (.jpV0 nnn) s = .next t ∧ t.pc.toNat = nnn.toNat + (s.reg 0).toNat ∧ Frame [] s t ∧
      (s.running = true → s.wait = none → s.cfg.progEnd < nnn.toNat + (s.reg 0).toNat + 2 →
        ∃ u, agentStep .instruction t = .next u ∧ EndedBy .pastProgramEnd t u)

/-- The four register skips (R74-R77): `pc` advances by 4 when the condition holds and by 2 when not, and nothing else
changes. The distances are the spec's decision D6 (log 10). -/
def Obligations.RegisterSkipsTestTheirOperands : Prop :=
  ∀ (s : State) (x y : Reg) (kk : Byte),
    (∃ t, exec (.seVxKk x kk) s = .next t ∧ Frame [] s t ∧ t.pc = if s.reg x = kk then s.pc + 4 else s.pc + 2) ∧
    (∃ t, exec (.sneVxKk x kk) s = .next t ∧ Frame [] s t ∧ t.pc = if s.reg x = kk then s.pc + 2 else s.pc + 4) ∧
    (∃ t, exec (.seVxVy x y) s = .next t ∧ Frame [] s t ∧ t.pc = if s.reg x = s.reg y then s.pc + 4 else s.pc + 2) ∧
    (∃ t, exec (.sneVxVy x y) s = .next t ∧ Frame [] s t ∧ t.pc = if s.reg x = s.reg y then s.pc + 2 else s.pc + 4)

/-! ## Register arithmetic and logic (42_alu.md) -/

/-- R81, R83-R86: load immediate, copy, OR, AND, XOR write V[x] alone, no flag, and advance by 2. -/
def Obligations.LoadsAndBitwiseWriteOnlyVx : Prop :=
  ∀ (s : State) (x y : Reg) (kk : Byte),
    (∃ t, exec (.ldVxKk x kk) s = .next t ∧ t.reg x = kk ∧ t.pc = s.pc + 2 ∧ Frame [.reg x] s t) ∧
    (∃ t, exec (.ldVxVy x y) s = .next t ∧ t.reg x = s.reg y ∧ t.pc = s.pc + 2 ∧ Frame [.reg x] s t) ∧
    (∃ t, exec (.orVxVy x y) s = .next t ∧ t.reg x = s.reg x ||| s.reg y ∧ t.pc = s.pc + 2 ∧ Frame [.reg x] s t) ∧
    (∃ t, exec (.andVxVy x y) s = .next t ∧ t.reg x = s.reg x &&& s.reg y ∧ t.pc = s.pc + 2 ∧ Frame [.reg x] s t) ∧
    (∃ t, exec (.xorVxVy x y) s = .next t ∧ t.reg x = s.reg x ^^^ s.reg y ∧ t.pc = s.pc + 2 ∧ Frame [.reg x] s t)

/-- R82: ADD immediate writes the sum modulo 256 to V[x] and changes no flag (VF only where it is the destination). -/
def Obligations.AddImmediateWrapsWithoutCarry : Prop :=
  ∀ (s : State) (x : Reg) (kk : Byte),
    ∃ t, exec (.addVxKk x kk) s = .next t ∧ (t.reg x).toNat = ((s.reg x).toNat + kk.toNat) % 256 ∧ t.pc = s.pc + 2 ∧
      Frame [.reg x] s t

/-- ADD Vx, Vy (R87): V[x] is the integer sum modulo 256 and VF is 1 exactly when the sum exceeds 255; where VF is the
destination the carry is what stays (statement order, D11, log 15). -/
def Obligations.AddSetsTheCarry : Prop :=
  ∀ (s : State) (x y : Reg),
    ∃ t, exec (.addVxVy x y) s = .next t ∧
      (x ≠ 15 → (t.reg x).toNat = ((s.reg x).toNat + (s.reg y).toNat) % 256) ∧
      (t.reg 15).toNat = (if (s.reg x).toNat + (s.reg y).toNat > 255 then 1 else 0) ∧
      t.pc = s.pc + 2 ∧ Frame [.reg x, .reg 15] s t

/-- SUB and SUBN (R88, R90): V[x] is the difference modulo 256 and VF is 1 exactly when the minuend is at least the
subtrahend; where VF is the destination the flag is what stays (statement order, D11, log 15). -/
def Obligations.SubtractionsSetNoBorrow : Prop :=
  ∀ (s : State) (x y : Reg),
    (∃ t, exec (.subVxVy x y) s = .next t ∧
      (x ≠ 15 → ((t.reg x).toNat : Int) = (((s.reg x).toNat : Int) - (s.reg y).toNat) % 256) ∧
      (t.reg 15).toNat = (if (s.reg x).toNat ≥ (s.reg y).toNat then 1 else 0) ∧
      t.pc = s.pc + 2 ∧ Frame [.reg x, .reg 15] s t) ∧
    (∃ t, exec (.subnVxVy x y) s = .next t ∧
      (x ≠ 15 → ((t.reg x).toNat : Int) = (((s.reg y).toNat : Int) - (s.reg x).toNat) % 256) ∧
      (t.reg 15).toNat = (if (s.reg y).toNat ≥ (s.reg x).toNat then 1 else 0) ∧
      t.pc = s.pc + 2 ∧ Frame [.reg x, .reg 15] s t)

/-- SHR and SHL (R89, R91): V[x] is halved, or doubled modulo 256, and VF is the bit shifted out; V[y] plays no part. With
x = F the flag is written first and then shifted, so VF ends as 0, or as twice the old bit 7 (D11, log 15). -/
def Obligations.ShiftsMoveByOneBit : Prop :=
  ∀ (s : State) (x y : Reg),
    (∃ t, exec (.shrVx x y) s = .next t ∧
      (x ≠ 15 → (t.reg x).toNat = (s.reg x).toNat / 2 ∧ (t.reg 15).toNat = (s.reg x).toNat % 2) ∧
      (x = 15 → (t.reg 15).toNat = 0) ∧ t.pc = s.pc + 2 ∧ Frame [.reg x, .reg 15] s t) ∧
    (∃ t, exec (.shlVx x y) s = .next t ∧
      (x ≠ 15 → (t.reg x).toNat = (s.reg x).toNat * 2 % 256 ∧ (t.reg 15).toNat = (s.reg x).toNat / 128) ∧
      (x = 15 → (t.reg 15).toNat = (s.reg 15).toNat / 128 * 2) ∧ t.pc = s.pc + 2 ∧ Frame [.reg x, .reg 15] s t)

/-- RND (R92) writes the step's draw masked by `kk`, a free byte of which nothing is stated (D27, log 4), and the next RND
takes a draw of its own. -/
def Obligations.RandomByteIsMasked : Prop :=
  ∀ (s : State) (x : Reg) (kk : Byte),
    ∃ t, exec (.rnd x kk) s = .next t ∧ t.reg x = Config.randomByte s.draws &&& kk ∧ t.draws = s.draws + 1 ∧
      t.pc = s.pc + 2 ∧ Frame [.reg x, .draws] s t

/-! ## Index register and memory (43_index_memory.md) -/

/-- R94, R96: LD I sets `I` to the zero-extended address; LD F to five times the whole register, also beyond the font. -/
def Obligations.IndexLoadsSetI : Prop :=
  ∀ (s : State) (x : Reg) (nnn : Addr12),
    (∃ t, exec (.ldI nnn) s = .next t ∧ t.I.toNat = nnn.toNat ∧ t.pc = s.pc + 2 ∧ Frame [.index] s t) ∧
    (∃ t, exec (.ldFVx x) s = .next t ∧ t.I.toNat = (s.reg x).toNat * 5 ∧ t.pc = s.pc + 2 ∧ Frame [.index] s t)

/-- ADD I, Vx (R95): the sum modulo 65536, no error past 0xFFF, and no flag (the width is the spec's decision D12, log 16). -/
def Obligations.AddToIndexWrapsAtSixteenBits : Prop :=
  ∀ (s : State) (x : Reg),
    ∃ t, exec (.addIVx x) s = .next t ∧ t.I.toNat = (s.I.toNat + (s.reg x).toNat) % 65536 ∧ t.pc = s.pc + 2 ∧
      Frame [.index] s t

/-- LD B (R97): the three decimal digits of V[x], hundreds first, at the address `dataAddress` gives; every other byte and
`I` as before. Where the three bytes do not all exist it raises MemoryOutOfRange and nothing else changes (R41; D8, D13,
D15: log 9, log 17, log 19). -/
def Obligations.BcdStoresThreeDigits : Prop :=
  ∀ (s : State) (x : Reg),
    (∀ a, a = dataAddress s → a + 3 ≤ 4096 →
      ∃ t, exec (.ldBVx x) s = .next t ∧
        (t.byteAt a).toNat = (s.reg x).toNat / 100 ∧
        (t.byteAt (a + 1)).toNat = (s.reg x).toNat / 10 % 10 ∧
        (t.byteAt (a + 2)).toNat = (s.reg x).toNat % 10 ∧
        (∀ c, c < a ∨ a + 3 ≤ c → t.byteAt c = s.byteAt c) ∧ t.pc = s.pc + 2 ∧ Frame [.memory] s t) ∧
    (4096 < dataAddress s + 3 →
      ∃ t, exec (.ldBVx x) s = .next t ∧
        EndedBy (.error .memoryOutOfRange s.pc (BitVec.ofNat 16 (0xF033 + 256 * x.val))) s t)

/-- LD [I], Vx (R98): V0 to Vx at the address `dataAddress` gives, V0 lowest; every other byte and `I` as before. Where the
x + 1 bytes do not all exist it raises MemoryOutOfRange and nothing else changes (R41; D8, D13, D15: log 9, log 17, log 19). -/
def Obligations.StoreWritesRegistersInOrder : Prop :=
  ∀ (s : State) (x : Reg),
    (∀ a, a = dataAddress s → a + x.val + 1 ≤ 4096 →
      ∃ t, exec (.ldMemVx x) s = .next t ∧
        (∀ r : Reg, r ≤ x → t.byteAt (a + r.val) = s.reg r) ∧
        (∀ c, c < a ∨ a + x.val + 1 ≤ c → t.byteAt c = s.byteAt c) ∧ t.pc = s.pc + 2 ∧ Frame [.memory] s t) ∧
    (4096 < dataAddress s + x.val + 1 →
      ∃ t, exec (.ldMemVx x) s = .next t ∧
        EndedBy (.error .memoryOutOfRange s.pc (BitVec.ofNat 16 (0xF055 + 256 * x.val))) s t)

/-- LD Vx, [I] (R99): V0 to Vx from the bytes at the address `dataAddress` gives, every higher register, every byte and `I`
as before. Where the x + 1 bytes do not all exist it raises MemoryOutOfRange and nothing else changes (R41; D8, D13, D15:
log 9, log 17, log 19). -/
def Obligations.LoadReadsRegistersInOrder : Prop :=
  ∀ (s : State) (x : Reg),
    (dataAddress s + x.val + 1 ≤ 4096 →
      ∃ t, exec (.ldVxMem x) s = .next t ∧
        (∀ r : Reg, r ≤ x → t.reg r = s.byteAt (dataAddress s + r.val)) ∧
        (∀ r : Reg, x < r → t.reg r = s.reg r) ∧ t.pc = s.pc + 2 ∧ Frame (regsTo x) s t) ∧
    (4096 < dataAddress s + x.val + 1 →
      ∃ t, exec (.ldVxMem x) s = .next t ∧
        EndedBy (.error .memoryOutOfRange s.pc (BitVec.ofNat 16 (0xF065 + 256 * x.val))) s t)

/-- A store of V0 to Vx followed by a load of V0 to Vx through the same `I`, whatever happened to the registers between,
gives back every stored register (R98, R99, R48; `I` unchanged by the store: D13, log 17). -/
def Obligations.LoadAfterStoreRestoresRegisters : Prop :=
  ∀ (s t u : State) (x : Reg), dataAddress s + x.val + 1 ≤ 4096 → exec (.ldMemVx x) s = .next t →
    u.mem = t.mem → u.cfg = t.cfg → u.I = t.I →
      ∃ v, exec (.ldVxMem x) u = .next v ∧ (∀ r : Reg, r ≤ x → v.reg r = s.reg r) ∧ (∀ r : Reg, x < r → v.reg r = u.reg r)

/-- A fetch right after a store of V0 to Vx, after a store of three digits, or after a host `load` reads the stored bytes,
at every place where both bytes were stored: self-modifying code needs no fence (R50, an inference the spec marks as its
own, from R37 and R48). That `load` may stand at any boundary is D2 (log 25). -/
def Obligations.FetchSeesTheStore : Prop :=
  (∀ (s t : State) (x : Reg) (k : Nat) (hk : k + 1 ≤ x.val) (p : Word), dataAddress s + x.val + 1 ≤ 4096 →
    exec (.ldMemVx x) s = .next t → p.toNat = dataAddress s + k →
      fetchWord (t.setPc p) =
        some (wordOfBytes (s.reg ⟨k, Nat.lt_of_lt_of_le (Nat.lt_of_succ_le hk) (Nat.le_of_lt x.isLt)⟩)
          (s.reg ⟨k + 1, Nat.lt_of_le_of_lt hk x.isLt⟩))) ∧
  (∀ (s t : State) (x : Reg) (p : Word), dataAddress s + 3 ≤ 4096 → exec (.ldBVx x) s = .next t →
    (p.toNat = dataAddress s →
      fetchWord (t.setPc p) =
        some (wordOfBytes (BitVec.ofNat 8 ((s.reg x).toNat / 100)) (BitVec.ofNat 8 ((s.reg x).toNat / 10 % 10)))) ∧
    (p.toNat = dataAddress s + 1 →
      fetchWord (t.setPc p) =
        some (wordOfBytes (BitVec.ofNat 8 ((s.reg x).toNat / 10 % 10)) (BitVec.ofNat 8 ((s.reg x).toNat % 10))))) ∧
  (∀ (s t : State) (bytes : List Byte) (k : Nat) (p : Word), hostOp (.load bytes) s = .next (t, .done) →
    k + 1 < bytes.length → p.toNat = 0x200 + k →
      fetchWord (t.setPc p) = some (wordOfBytes (bytes.getD k 0) (bytes.getD (k + 1) 0)))

/-! ## Display (44_display.md) -/

/-- R100: CLS leaves every one of the 2048 pixels 0 and the dirty flag set, whatever the display held; VF is not changed. -/
def Obligations.ClearDisplayIsTotal : Prop :=
  ∀ (s : State),
    ∃ t, exec .cls s = .next t ∧ (∀ col row, col < 64 → row < 32 → t.pix col row = false) ∧ t.dirty = true ∧
      t.pc = s.pc + 2 ∧ Frame [.display, .dirty] s t

/-- DRW (R101): every pixel is the pixel before XOR the sprite's bit on it, the n bytes at `dataAddress` being the sprite,
the origin (V[x] mod 64, V[y] mod 32), every position wrapping (C3, log 14); VF is 1 exactly when a set pixel was turned
off; dirty is set; nothing else changes. With n = 0 nothing is read and no pixel changes (D10, log 14). That `I` stays is D13
(log 17), that all of memory can be read D15 (log 19). -/
def Obligations.DrawXorsTheSpriteOntoTheDisplay : Prop :=
  ∀ (s : State) (x y : Reg) (n : RowCount) (rows : List Byte), (n.val = 0 ∨ dataAddress s + n.val ≤ 4096) →
    rows.length = n.val → (∀ r, r < n.val → rows.getD r 0 = s.byteAt (dataAddress s + r)) →
      ∃ t, exec (.drw x y n) s = .next t ∧
        (∀ col row, col < 64 → row < 32 →
          (SpriteCovers ((s.reg x).toNat % 64) ((s.reg y).toNat % 32) rows col row → t.pix col row = !s.pix col row) ∧
          (¬ SpriteCovers ((s.reg x).toNat % 64) ((s.reg y).toNat % 32) rows col row → t.pix col row = s.pix col row)) ∧
        ((∃ col row, col < 64 ∧ row < 32 ∧ s.pix col row = true ∧
            SpriteCovers ((s.reg x).toNat % 64) ((s.reg y).toNat % 32) rows col row) → t.reg 15 = 1) ∧
        ((¬ ∃ col row, col < 64 ∧ row < 32 ∧ s.pix col row = true ∧
            SpriteCovers ((s.reg x).toNat % 64) ((s.reg y).toNat % 32) rows col row) → t.reg 15 = 0) ∧
        t.dirty = true ∧ t.pc = s.pc + 2 ∧ Frame [.display, .dirty, .reg 15] s t

/-- DRW of a sprite that does not lie inside memory raises MemoryOutOfRange: no pixel, flag or dirty change (R101, R41; D8,
log 9; the span is all of memory, D15, log 19). -/
def Obligations.DrawOutsideMemoryRaises : Prop :=
  ∀ (s : State) (x y : Reg) (n : RowCount), n.val ≠ 0 → 4096 < dataAddress s + n.val →
    ∃ t, exec (.drw x y n) s = .next t ∧
      EndedBy (.error .memoryOutOfRange s.pc (BitVec.ofNat 16 (0xD000 + 256 * x.val + 16 * y.val + n.val))) s t

/-- The same sprite drawn twice at the same place leaves every pixel as it was (R101), VF being no coordinate. It rests on
the first draw leaving `I` (D13, log 17). -/
def Obligations.DrawingTwiceRestoresTheDisplay : Prop :=
  ∀ (s t u : State) (x y : Reg) (n : RowCount), x ≠ 15 → y ≠ 15 → (n.val = 0 ∨ dataAddress s + n.val ≤ 4096) →
    exec (.drw x y n) s = .next t → exec (.drw x y n) t = .next u →
      ∀ col row, col < 64 → row < 32 → u.pix col row = s.pix col row

/-- The collision law (95_test_vectors.md E3, R101): a one-row sprite of all set bits at an empty place sets its 8 pixels
and VF = 0; drawn again it clears them and sets VF = 1. Where the row meets the right edge it rests on the wrap (C3, log 14),
and the second draw on the first leaving `I` (D13, log 17). -/
def Obligations.FullRowDrawnTwiceCollides : Prop :=
  ∀ (s t u : State) (x y : Reg), x ≠ 15 → y ≠ 15 → dataAddress s + 1 ≤ 4096 → s.byteAt (dataAddress s) = 0xFF →
    (∀ w, w < 8 → s.pix (((s.reg x).toNat + w) % 64) ((s.reg y).toNat % 32) = false) →
    exec (.drw x y 1) s = .next t → exec (.drw x y 1) t = .next u →
      t.reg 15 = 0 ∧ (∀ w, w < 8 → t.pix (((s.reg x).toNat + w) % 64) ((s.reg y).toNat % 32) = true) ∧
      u.reg 15 = 1 ∧ (∀ w, w < 8 → u.pix (((s.reg x).toNat + w) % 64) ((s.reg y).toNat % 32) = false)

/-! ## Keys and timers (45_keys_timers.md) -/

/-- SKP and SKNP (R102-R104): the key whose code V[x] holds is tested by its bit; a code of 16 or more names no key and
counts as not pressed (D14, log 18); the skip distances are D6 (log 10). -/
def Obligations.KeySkipsTestTheBitmap : Prop :=
  ∀ (s : State) (x : Reg),
    (∃ t, exec (.skp x) s = .next t ∧ Frame [] s t ∧
      t.pc = if (s.reg x).toNat < 16 ∧ s.keys.getLsbD (s.reg x).toNat = true then s.pc + 4 else s.pc + 2) ∧
    (∃ t, exec (.sknp x) s = .next t ∧ Frame [] s t ∧
      t.pc = if (s.reg x).toNat < 16 ∧ s.keys.getLsbD (s.reg x).toNat = true then s.pc + 2 else s.pc + 4)

/-- R105, R108: LD Vx, DT reads the delay timer; LD DT, Vx writes it. -/
def Obligations.DelayTimerMoves : Prop :=
  ∀ (s : State) (x : Reg),
    (∃ t, exec (.ldVxDt x) s = .next t ∧ t.reg x = s.DT ∧ t.pc = s.pc + 2 ∧ Frame [.reg x] s t) ∧
    (∃ t, exec (.ldDtVx x) s = .next t ∧ t.DT = s.reg x ∧ t.pc = s.pc + 2 ∧ Frame [.delay] s t)

/-- LD ST, Vx (R109) writes the sound timer and emits nothing, also for 0 (D16, log 20). -/
def Obligations.SoundTimerWriteIsSilent : Prop :=
  ∀ (s : State) (x : Reg),
    ∃ t, exec (.ldStVx x) s = .next t ∧ t.ST = s.reg x ∧ t.pc = s.pc + 2 ∧ Frame [.sound] s t

/-- LD Vx, K (R106) enters the key wait for V[x] and does nothing else: `pc` stays, V[x] stays, and keys already held do not
resolve it (D18, log 22). -/
def Obligations.KeyWaitStarts : Prop :=
  ∀ (s : State) (x : Reg),
    ∃ t, exec (.ldVxK x) s = .next t ∧ t.wait = some x ∧ t.pc = s.pc ∧ Frame [.wait] s t

/-- `keydown(k)` (R127): the key's bit is set, no other bit changes; a pending wait for V[r] is resolved with V[r] = k and
`pc` past the waiting instruction, also by a key that was already down (D18, log 22). -/
def Obligations.KeydownSetsTheBitAndResolvesTheWait : Prop :=
  ∀ (s : State) (k : Key),
    (s.wait = none →
      ∃ t, hostOp (.keydown k.val) s = .next (t, .done) ∧
        (∀ j : Key, t.keys.getLsbD j.val = (decide (j = k) || s.keys.getLsbD j.val)) ∧ t.pc = s.pc ∧ Frame [.keys] s t) ∧
    (∀ r, s.wait = some r →
      ∃ t, hostOp (.keydown k.val) s = .next (t, .done) ∧
        (∀ j : Key, t.keys.getLsbD j.val = (decide (j = k) || s.keys.getLsbD j.val)) ∧
        (t.reg r).toNat = k.val ∧ t.pc = s.pc + 2 ∧ t.wait = none ∧ Frame [.keys, .reg r, .wait] s t)

/-- R128: `keyup(k)` clears the key's bit and changes nothing else; a pending wait stays pending. -/
def Obligations.KeyupClearsTheBitOnly : Prop :=
  ∀ (s : State) (k : Key),
    ∃ t, hostOp (.keyup k.val) s = .next (t, .done) ∧
      (∀ j : Key, t.keys.getLsbD j.val = (!decide (j = k) && s.keys.getLsbD j.val)) ∧ t.pc = s.pc ∧ Frame [.keys] s t

/-- The blocking law (R106, R107, 95_test_vectors.md E5): from a key wait in a run, any turns that are no `keydown`, no
`stop()` and no `reset()` leave the wait pending, `pc` at the waiting instruction and every register unchanged; `keyup` and
ticks do not resolve it (D18, log 22). Turns of the suspended instruction agent pass (log 3); that `running` stays true in a
wait is D21 (log 22), that `run()` changes nothing in it D22 (log 23), that `load` leaves it D2 (log 25). -/
def Obligations.KeyWaitBlocksUntilAKeyPress : Prop :=
  ∀ (ms : List Move) (s : State) (r : Reg), s.cfg.wf → s.running = true → s.wait = some r →
    (∀ m ∈ ms, m.inBounds = true ∧ m ≠ .host .stop ∧ m ≠ .host .reset ∧ ∀ k, m ≠ .host (.keydown k)) →
      ∃ t, takeTurns ms s = .next t ∧ t.wait = some r ∧ t.running = true ∧ t.pc = s.pc ∧ ∀ q, t.reg q = s.reg q

/-! ## The timer agent (60_exceptions.md) -/

/-- A tick (R121) counts both timers down by one, never below zero, also during a key wait; it emits Beep exactly when ST
goes from 1 to 0 and a hook is registered, which is the spec's decision D16 (log 20); it changes nothing else. -/
def Obligations.TickCountsBothTimersDown : Prop :=
  ∀ (s : State), s.timersOn = true →
    ∃ t, agentStep .tick s = .next t ∧ t.DT.toNat = s.DT.toNat - 1 ∧ t.ST.toNat = s.ST.toNat - 1 ∧
      t.out = s.out ++ (if s.ST.toNat = 1 ∧ s.cfg.beepHook = true then [.beep] else []) ∧ t.pc = s.pc ∧
      Frame [.delay, .sound, .out] s t

/-- R123: with no write between and the timer scheduler on, k ticks take k off each timer until it reaches 0; the next tick
takes a nonzero timer strictly down and leaves a timer at 0 where it is. -/
def Obligations.TicksDecreaseTimersToZero : Prop :=
  ∀ (s : State) (k : Nat), s.timersOn = true →
    ∃ t u, takeTurns (List.replicate k .tick) s = .next t ∧ agentStep .tick t = .next u ∧
      t.DT.toNat = s.DT.toNat - k ∧ t.ST.toNat = s.ST.toNat - k ∧
      (0 < t.DT.toNat → u.DT.toNat < t.DT.toNat) ∧ (t.DT.toNat = 0 → u.DT.toNat = 0) ∧
      (0 < t.ST.toNat → u.ST.toNat < t.ST.toNat) ∧ (t.ST.toNat = 0 → u.ST.toNat = 0)

/-- The beep (R122; D16, log 20): k ticks with no write between emit exactly one Beep if they take a nonzero sound timer to
0 with a hook registered, and none otherwise; it does not fire again at zero. -/
def Obligations.BeepFiresOncePerCountdown : Prop :=
  ∀ (s : State) (k : Nat), s.timersOn = true →
    ∃ t, takeTurns (List.replicate k .tick) s = .next t ∧
      t.out = s.out ++ (if 0 < s.ST.toNat ∧ s.ST.toNat ≤ k ∧ s.cfg.beepHook = true then [.beep] else [])

/-! ## The host's operations (60_exceptions.md, 70_reset_and_hazards.md) -/

/-- `run()` (R129): starts both schedulers and clears the end reason when no run is in progress; during one it changes
nothing (D22, log 23). -/
def Obligations.RunStartsBothSchedulers : Prop :=
  ∀ (s : State),
    (s.running = false →
      ∃ t, hostOp .run s = .next (t, .done) ∧ t.running = true ∧ t.timersOn = true ∧ t.endReason = none ∧ t.pc = s.pc ∧
        Frame [.running, .timersOn, .endReason] s t) ∧
    (s.running = true → hostOp .run s = .next (s, .done))

/-- `stop()` (R130): ends the run, stops the timers, cancels a wait, with `pc` where it is; after a run has ended it only
stops the timers and keeps the end reason (D17, D19: log 21, log 22). -/
def Obligations.StopEndsTheRun : Prop :=
  ∀ (s : State),
    (s.running = true →
      ∃ t, hostOp .stop s = .next (t, .done) ∧ t.running = false ∧ t.timersOn = false ∧ t.wait = none ∧
        t.endReason = some .stopRequested ∧ t.pc = s.pc ∧ Frame [.running, .timersOn, .wait, .endReason] s t) ∧
    (s.running = false →
      ∃ t, hostOp .stop s = .next (t, .done) ∧ t.timersOn = false ∧ t.pc = s.pc ∧ Frame [.timersOn] s t)

/-- `reset()` (R134): `pc` goes to 0x200 and a wait is cancelled (D20, log 22); registers, memory, stack, timers, keys,
display, the run and the output stay. -/
def Obligations.HostResetRewindsOnly : Prop :=
  ∀ (s : State), ∃ t, hostOp .reset s = .next (t, .done) ∧ t.pc = 0x200 ∧ t.wait = none ∧ Frame [.wait] s t

/-- `load(bytes)` (R135): the bytes at 0x200 on, every other byte and everything else as before (D2, log 25); more bytes
than the program region holds are answered LoadTooLarge and nothing changes. -/
def Obligations.LoadCopiesTheImageOrIsTooLarge : Prop :=
  ∀ (s : State) (bytes : List Byte), s.cfg.wf →
    (bytes.length ≤ s.cfg.progEnd - 0x200 →
      ∃ t, hostOp (.load bytes) s = .next (t, .done) ∧
        (∀ j, j < bytes.length → t.byteAt (0x200 + j) = bytes.getD j 0) ∧
        (∀ a, a < 0x200 ∨ 0x200 + bytes.length ≤ a → t.byteAt a = s.byteAt a) ∧ t.pc = s.pc ∧ Frame [.memory] s t) ∧
    (s.cfg.progEnd - 0x200 < bytes.length → hostOp (.load bytes) s = .next (s, .loadTooLarge))

/-- The queries (R132) answer with what they name and change nothing, but for `gfx`, which clears the dirty flag; an index
or a range out of bounds is refused (R131; D24, log 24). -/
def Obligations.QueriesAnswerAndChangeNothing : Prop :=
  ∀ (s : State),
    (∀ i : Reg, hostOp (.query (.v i.val)) s = .next (s, .byte (s.reg i))) ∧
    hostOp (.query .i) s = .next (s, .word s.I) ∧
    hostOp (.query .delay) s = .next (s, .byte s.DT) ∧
    hostOp (.query .sound) s = .next (s, .byte s.ST) ∧
    (∀ a n, a + n ≤ 4096 → ∃ bs, hostOp (.query (.memory a n)) s = .next (s, .bytes bs) ∧ bs.length = n ∧
      ∀ j, j < n → bs.getD j 0 = s.byteAt (a + j)) ∧
    (∃ t rows, hostOp (.query .gfx) s = .next (t, .pixels rows) ∧ t.dirty = false ∧ t.pc = s.pc ∧ Frame [.dirty] s t ∧
      ∀ col row, col < 64 → row < 32 → (rows[row]?.getD 0).getLsbD col = s.pix col row) ∧
    hostOp (.query .dirty) s = .next (s, .flag s.dirty) ∧
    hostOp (.query .running) s = .next (s, .flag s.running) ∧
    (∀ i, 16 ≤ i → ∃ r, hostOp (.query (.v i)) s = .refused r) ∧
    (∀ a n, 4096 < a + n → ∃ r, hostOp (.query (.memory a n)) s = .refused r)

/-- A key code outside 0..15 is refused at the interface, for `keydown` and `keyup` (R127, R131; D23, log 24). -/
def Obligations.KeyCodesOutOfRangeAreRefused : Prop :=
  ∀ (s : State) (code : Nat), 16 ≤ code →
    (∃ r, hostOp (.keydown code) s = .refused r) ∧ (∃ r, hostOp (.keyup code) s = .refused r)

/-- A host turn runs the operation and keeps its reply; nothing else of the state differs from the operation's own effect
(R46, R131; that the reply is kept is the model's, log 26). -/
def Obligations.HostTurnRunsTheOperation : Prop :=
  ∀ (s t : State) (op : HostOp) (r : Reply), hostOp op s = .next (t, r) →
    agentStep (.host op) s = .next { t with reply := some r }
end

