-- ==== Sys2Proof/Laws/Decode.lean ====
section
/-!
SUPPORT. The fields of a packed word, one lemma per layout and field (R53).
-/

namespace Sys2Proof

section
variable (f : BitVec 4) (nnn : Addr12) (x y : Reg) (kk : Byte) (n : BitVec 4)

theorem packNNN_toNat : (packNNN f nnn).toNat = f.toNat * 4096 + nnn.toNat := by
  have h := nnn.isLt
  simp only [packNNN, BitVec.toNat_append]
  rw [← Nat.shiftLeft_add_eq_or_of_lt h, Nat.shiftLeft_eq]

theorem packXKK_toNat : (packXKK f x kk).toNat = f.toNat * 4096 + x.val * 256 + kk.toNat := by
  have h1 := x.isLt
  have h2 := kk.isLt
  simp only [packXKK, BitVec.toNat_append, BitVec.toNat_ofFin]
  rw [← Nat.shiftLeft_add_eq_or_of_lt (by omega : x.val < 2 ^ 4), ← Nat.shiftLeft_add_eq_or_of_lt h2,
    Nat.shiftLeft_eq, Nat.shiftLeft_eq]
  omega

theorem packXYN_toNat : (packXYN f x y n).toNat = f.toNat * 4096 + x.val * 256 + y.val * 16 + n.toNat := by
  have h1 := x.isLt
  have h2 := y.isLt
  have h3 := n.isLt
  simp only [packXYN, BitVec.toNat_append, BitVec.toNat_ofFin]
  rw [← Nat.shiftLeft_add_eq_or_of_lt (by omega : x.val < 2 ^ 4),
    ← Nat.shiftLeft_add_eq_or_of_lt (by omega : y.val < 2 ^ 4), ← Nat.shiftLeft_add_eq_or_of_lt h3,
    Nat.shiftLeft_eq, Nat.shiftLeft_eq, Nat.shiftLeft_eq]
  omega

end

/-! ## The fields of any word, as numbers -/

section
variable (w : Word)

theorem fieldF_toNat : (fieldF w).toNat = w.toNat / 4096 := by
  have h := w.isLt
  simp only [fieldF, BitVec.extractLsb'_toNat, Nat.shiftRight_eq_div_pow]
  omega

theorem fieldX_val : (fieldX w).val = w.toNat / 256 % 16 := by
  simp only [fieldX, BitVec.val_toFin, BitVec.extractLsb'_toNat, Nat.shiftRight_eq_div_pow]

theorem fieldY_val : (fieldY w).val = w.toNat / 16 % 16 := by
  simp only [fieldY, BitVec.val_toFin, BitVec.extractLsb'_toNat, Nat.shiftRight_eq_div_pow]

theorem fieldN_val : (fieldN w).val = w.toNat % 16 := by
  simp [fieldN]

theorem fieldSub_toNat : (fieldSub w).toNat = w.toNat % 16 := by
  simp [fieldSub, BitVec.extractLsb'_toNat]

theorem fieldKK_toNat : (fieldKK w).toNat = w.toNat % 256 := by
  simp [fieldKK, BitVec.extractLsb'_toNat]

theorem fieldNNN_toNat : (fieldNNN w).toNat = w.toNat % 4096 := by
  simp [fieldNNN, BitVec.extractLsb'_toNat]

end

/-! ## The fields of a packed word -/

section
variable (f : BitVec 4) (nnn : Addr12) (x y : Reg) (kk : Byte) (n : BitVec 4)

@[simp] theorem fieldF_packNNN : fieldF (packNNN f nnn) = f := by
  apply BitVec.eq_of_toNat_eq
  have := nnn.isLt
  rw [fieldF_toNat, packNNN_toNat]
  omega

@[simp] theorem fieldF_packXKK : fieldF (packXKK f x kk) = f := by
  apply BitVec.eq_of_toNat_eq
  have := kk.isLt
  rw [fieldF_toNat, packXKK_toNat]
  omega

@[simp] theorem fieldF_packXYN : fieldF (packXYN f x y n) = f := by
  apply BitVec.eq_of_toNat_eq
  have := n.isLt
  rw [fieldF_toNat, packXYN_toNat]
  omega

@[simp] theorem fieldNNN_packNNN : fieldNNN (packNNN f nnn) = nnn := by
  apply BitVec.eq_of_toNat_eq
  have := nnn.isLt
  rw [fieldNNN_toNat, packNNN_toNat]
  omega

@[simp] theorem fieldX_packXKK : fieldX (packXKK f x kk) = x := by
  apply Fin.ext
  have := kk.isLt
  rw [fieldX_val, packXKK_toNat]
  omega

@[simp] theorem fieldKK_packXKK : fieldKK (packXKK f x kk) = kk := by
  apply BitVec.eq_of_toNat_eq
  have := kk.isLt
  rw [fieldKK_toNat, packXKK_toNat]
  omega

@[simp] theorem fieldX_packXYN : fieldX (packXYN f x y n) = x := by
  apply Fin.ext
  have := n.isLt
  rw [fieldX_val, packXYN_toNat]
  omega

@[simp] theorem fieldY_packXYN : fieldY (packXYN f x y n) = y := by
  apply Fin.ext
  have := n.isLt
  rw [fieldY_val, packXYN_toNat]
  omega

@[simp] theorem fieldSub_packXYN : fieldSub (packXYN f x y n) = n := by
  apply BitVec.eq_of_toNat_eq
  have := n.isLt
  rw [fieldSub_toNat, packXYN_toNat]
  omega

@[simp] theorem fieldN_packXYN : fieldN (packXYN f x y n) = n.toFin := by
  apply Fin.ext
  have := n.isLt
  rw [fieldN_val, packXYN_toNat]
  show _ = n.toNat
  omega

end

/-! ## Packing the fields of a word -/

section
variable (w : Word)

theorem packNNN_fields : packNNN (fieldF w) (fieldNNN w) = w := by
  apply BitVec.eq_of_toNat_eq
  rw [packNNN_toNat, fieldF_toNat, fieldNNN_toNat]
  omega

theorem packXKK_fields : packXKK (fieldF w) (fieldX w) (fieldKK w) = w := by
  apply BitVec.eq_of_toNat_eq
  rw [packXKK_toNat, fieldF_toNat, fieldX_val, fieldKK_toNat]
  omega

theorem packXYN_fields : packXYN (fieldF w) (fieldX w) (fieldY w) (fieldSub w) = w := by
  apply BitVec.eq_of_toNat_eq
  rw [packXYN_toNat, fieldF_toNat, fieldX_val, fieldY_val, fieldSub_toNat]
  omega

end

/-! ## Bytes (R42) -/

theorem wordOfBytes_toNat (hi lo : Byte) : (wordOfBytes hi lo).toNat = hi.toNat * 256 + lo.toNat := by
  have h := lo.isLt
  simp only [wordOfBytes, BitVec.toNat_append]
  rw [← Nat.shiftLeft_add_eq_or_of_lt h, Nat.shiftLeft_eq]

/-- A word is made again of its two bytes. -/
theorem wordOfBytes_bytesOfWord (w : Word) :
    wordOfBytes (w.extractLsb' 8 8) (w.extractLsb' 0 8) = w := by
  apply BitVec.eq_of_toNat_eq
  have h := w.isLt
  rw [wordOfBytes_toNat]
  simp only [BitVec.extractLsb'_toNat, Nat.shiftRight_eq_div_pow]
  omega

/-! ## Masks (R56) -/

section
variable (f : BitVec 4) (nnn : Addr12) (x y : Reg) (kk : Byte) (n : BitVec 4)

theorem packNNN_and_family : packNNN f nnn &&& 0xF000 = packNNN f 0 := by
  rw [show (0xF000 : Word) = BitVec.allOnes 4 ++ 0#12 by rfl, packNNN, BitVec.and_append]
  simp only [BitVec.and_allOnes, BitVec.and_zero]
  rfl

theorem packXKK_and_family : packXKK f x kk &&& 0xF000 = packXKK f 0 0 := by
  rw [show (0xF000 : Word) = BitVec.allOnes 4 ++ 0#4 ++ 0#8 by rfl, packXKK, BitVec.and_append, BitVec.and_append]
  simp only [BitVec.and_allOnes, BitVec.and_zero]
  rfl

theorem packXKK_and_byte : packXKK f x kk &&& 0xF0FF = packXKK f 0 kk := by
  rw [show (0xF0FF : Word) = BitVec.allOnes 4 ++ 0#4 ++ BitVec.allOnes 8 by rfl, packXKK, BitVec.and_append,
    BitVec.and_append]
  simp only [BitVec.and_allOnes, BitVec.and_zero]
  rfl

theorem packXYN_and_family : packXYN f x y n &&& 0xF000 = packXYN f 0 0 0 := by
  rw [show (0xF000 : Word) = BitVec.allOnes 4 ++ 0#4 ++ 0#4 ++ 0#4 by rfl, packXYN, BitVec.and_append,
    BitVec.and_append, BitVec.and_append]
  simp only [BitVec.and_allOnes, BitVec.and_zero]
  rfl

theorem packXYN_and_nibble : packXYN f x y n &&& 0xF00F = packXYN f 0 0 n := by
  rw [show (0xF00F : Word) = BitVec.allOnes 4 ++ 0#4 ++ 0#4 ++ BitVec.allOnes 4 by rfl, packXYN, BitVec.and_append,
    BitVec.and_append, BitVec.and_append]
  simp only [BitVec.and_allOnes, BitVec.and_zero]
  rfl

end

end Sys2Proof
end

