-- ==== Sys2Proof/Laws/State.lean ====
section
/-!
SUPPORT. One lemma per field per named update, each true by rfl, so that no later proof unfolds a record update.
-/

namespace Sys2Proof.Machine

/-! ## `setReg` -/

section
variable (s : State) (r : Reg) (v : Byte)

@[simp] theorem setReg_mem : (s.setReg r v).mem = s.mem := rfl
@[simp] theorem setReg_V : (s.setReg r v).V = s.V.set r v := rfl
@[simp] theorem setReg_I : (s.setReg r v).I = s.I := rfl
@[simp] theorem setReg_pc : (s.setReg r v).pc = s.pc := rfl
@[simp] theorem setReg_stack : (s.setReg r v).stack = s.stack := rfl
@[simp] theorem setReg_DT : (s.setReg r v).DT = s.DT := rfl
@[simp] theorem setReg_ST : (s.setReg r v).ST = s.ST := rfl
@[simp] theorem setReg_keys : (s.setReg r v).keys = s.keys := rfl
@[simp] theorem setReg_wait : (s.setReg r v).wait = s.wait := rfl
@[simp] theorem setReg_disp : (s.setReg r v).disp = s.disp := rfl
@[simp] theorem setReg_dirty : (s.setReg r v).dirty = s.dirty := rfl
@[simp] theorem setReg_running : (s.setReg r v).running = s.running := rfl
@[simp] theorem setReg_timersOn : (s.setReg r v).timersOn = s.timersOn := rfl
@[simp] theorem setReg_endReason : (s.setReg r v).endReason = s.endReason := rfl
@[simp] theorem setReg_out : (s.setReg r v).out = s.out := rfl
@[simp] theorem setReg_cfg : (s.setReg r v).cfg = s.cfg := rfl
@[simp] theorem setReg_moves : (s.setReg r v).moves = s.moves := rfl
@[simp] theorem setReg_draws : (s.setReg r v).draws = s.draws := rfl
@[simp] theorem setReg_reply : (s.setReg r v).reply = s.reply := rfl

end

/-! ## `setFlag` -/

section
variable (s : State) (v : Byte)

@[simp] theorem setFlag_mem : (s.setFlag v).mem = s.mem := rfl
@[simp] theorem setFlag_V : (s.setFlag v).V = s.V.set regVF v := rfl
@[simp] theorem setFlag_I : (s.setFlag v).I = s.I := rfl
@[simp] theorem setFlag_pc : (s.setFlag v).pc = s.pc := rfl
@[simp] theorem setFlag_stack : (s.setFlag v).stack = s.stack := rfl
@[simp] theorem setFlag_DT : (s.setFlag v).DT = s.DT := rfl
@[simp] theorem setFlag_ST : (s.setFlag v).ST = s.ST := rfl
@[simp] theorem setFlag_keys : (s.setFlag v).keys = s.keys := rfl
@[simp] theorem setFlag_wait : (s.setFlag v).wait = s.wait := rfl
@[simp] theorem setFlag_disp : (s.setFlag v).disp = s.disp := rfl
@[simp] theorem setFlag_dirty : (s.setFlag v).dirty = s.dirty := rfl
@[simp] theorem setFlag_running : (s.setFlag v).running = s.running := rfl
@[simp] theorem setFlag_timersOn : (s.setFlag v).timersOn = s.timersOn := rfl
@[simp] theorem setFlag_endReason : (s.setFlag v).endReason = s.endReason := rfl
@[simp] theorem setFlag_out : (s.setFlag v).out = s.out := rfl
@[simp] theorem setFlag_cfg : (s.setFlag v).cfg = s.cfg := rfl
@[simp] theorem setFlag_moves : (s.setFlag v).moves = s.moves := rfl
@[simp] theorem setFlag_draws : (s.setFlag v).draws = s.draws := rfl
@[simp] theorem setFlag_reply : (s.setFlag v).reply = s.reply := rfl

end

/-! ## `setRegs` -/

section
variable (s : State) (bs : List Byte)

@[simp] theorem setRegs_mem : (s.setRegs bs).mem = s.mem := rfl
@[simp] theorem setRegs_V : (s.setRegs bs).V = loadRegs s.V 0 bs := rfl
@[simp] theorem setRegs_I : (s.setRegs bs).I = s.I := rfl
@[simp] theorem setRegs_pc : (s.setRegs bs).pc = s.pc := rfl
@[simp] theorem setRegs_stack : (s.setRegs bs).stack = s.stack := rfl
@[simp] theorem setRegs_DT : (s.setRegs bs).DT = s.DT := rfl
@[simp] theorem setRegs_ST : (s.setRegs bs).ST = s.ST := rfl
@[simp] theorem setRegs_keys : (s.setRegs bs).keys = s.keys := rfl
@[simp] theorem setRegs_wait : (s.setRegs bs).wait = s.wait := rfl
@[simp] theorem setRegs_disp : (s.setRegs bs).disp = s.disp := rfl
@[simp] theorem setRegs_dirty : (s.setRegs bs).dirty = s.dirty := rfl
@[simp] theorem setRegs_running : (s.setRegs bs).running = s.running := rfl
@[simp] theorem setRegs_timersOn : (s.setRegs bs).timersOn = s.timersOn := rfl
@[simp] theorem setRegs_endReason : (s.setRegs bs).endReason = s.endReason := rfl
@[simp] theorem setRegs_out : (s.setRegs bs).out = s.out := rfl
@[simp] theorem setRegs_cfg : (s.setRegs bs).cfg = s.cfg := rfl
@[simp] theorem setRegs_moves : (s.setRegs bs).moves = s.moves := rfl
@[simp] theorem setRegs_draws : (s.setRegs bs).draws = s.draws := rfl
@[simp] theorem setRegs_reply : (s.setRegs bs).reply = s.reply := rfl

end

/-! ## `setMem` -/

section
variable (s : State) (m : Memory)

@[simp] theorem setMem_mem : (s.setMem m).mem = m := rfl
@[simp] theorem setMem_V : (s.setMem m).V = s.V := rfl
@[simp] theorem setMem_I : (s.setMem m).I = s.I := rfl
@[simp] theorem setMem_pc : (s.setMem m).pc = s.pc := rfl
@[simp] theorem setMem_stack : (s.setMem m).stack = s.stack := rfl
@[simp] theorem setMem_DT : (s.setMem m).DT = s.DT := rfl
@[simp] theorem setMem_ST : (s.setMem m).ST = s.ST := rfl
@[simp] theorem setMem_keys : (s.setMem m).keys = s.keys := rfl
@[simp] theorem setMem_wait : (s.setMem m).wait = s.wait := rfl
@[simp] theorem setMem_disp : (s.setMem m).disp = s.disp := rfl
@[simp] theorem setMem_dirty : (s.setMem m).dirty = s.dirty := rfl
@[simp] theorem setMem_running : (s.setMem m).running = s.running := rfl
@[simp] theorem setMem_timersOn : (s.setMem m).timersOn = s.timersOn := rfl
@[simp] theorem setMem_endReason : (s.setMem m).endReason = s.endReason := rfl
@[simp] theorem setMem_out : (s.setMem m).out = s.out := rfl
@[simp] theorem setMem_cfg : (s.setMem m).cfg = s.cfg := rfl
@[simp] theorem setMem_moves : (s.setMem m).moves = s.moves := rfl
@[simp] theorem setMem_draws : (s.setMem m).draws = s.draws := rfl
@[simp] theorem setMem_reply : (s.setMem m).reply = s.reply := rfl

end

/-! ## `setStack` -/

section
variable (s : State) (l : List Word)

@[simp] theorem setStack_mem : (s.setStack l).mem = s.mem := rfl
@[simp] theorem setStack_V : (s.setStack l).V = s.V := rfl
@[simp] theorem setStack_I : (s.setStack l).I = s.I := rfl
@[simp] theorem setStack_pc : (s.setStack l).pc = s.pc := rfl
@[simp] theorem setStack_stack : (s.setStack l).stack = l := rfl
@[simp] theorem setStack_DT : (s.setStack l).DT = s.DT := rfl
@[simp] theorem setStack_ST : (s.setStack l).ST = s.ST := rfl
@[simp] theorem setStack_keys : (s.setStack l).keys = s.keys := rfl
@[simp] theorem setStack_wait : (s.setStack l).wait = s.wait := rfl
@[simp] theorem setStack_disp : (s.setStack l).disp = s.disp := rfl
@[simp] theorem setStack_dirty : (s.setStack l).dirty = s.dirty := rfl
@[simp] theorem setStack_running : (s.setStack l).running = s.running := rfl
@[simp] theorem setStack_timersOn : (s.setStack l).timersOn = s.timersOn := rfl
@[simp] theorem setStack_endReason : (s.setStack l).endReason = s.endReason := rfl
@[simp] theorem setStack_out : (s.setStack l).out = s.out := rfl
@[simp] theorem setStack_cfg : (s.setStack l).cfg = s.cfg := rfl
@[simp] theorem setStack_moves : (s.setStack l).moves = s.moves := rfl
@[simp] theorem setStack_draws : (s.setStack l).draws = s.draws := rfl
@[simp] theorem setStack_reply : (s.setStack l).reply = s.reply := rfl

end

/-! ## `setIndex` -/

section
variable (s : State) (v : Word)

@[simp] theorem setIndex_mem : (s.setIndex v).mem = s.mem := rfl
@[simp] theorem setIndex_V : (s.setIndex v).V = s.V := rfl
@[simp] theorem setIndex_I : (s.setIndex v).I = v := rfl
@[simp] theorem setIndex_pc : (s.setIndex v).pc = s.pc := rfl
@[simp] theorem setIndex_stack : (s.setIndex v).stack = s.stack := rfl
@[simp] theorem setIndex_DT : (s.setIndex v).DT = s.DT := rfl
@[simp] theorem setIndex_ST : (s.setIndex v).ST = s.ST := rfl
@[simp] theorem setIndex_keys : (s.setIndex v).keys = s.keys := rfl
@[simp] theorem setIndex_wait : (s.setIndex v).wait = s.wait := rfl
@[simp] theorem setIndex_disp : (s.setIndex v).disp = s.disp := rfl
@[simp] theorem setIndex_dirty : (s.setIndex v).dirty = s.dirty := rfl
@[simp] theorem setIndex_running : (s.setIndex v).running = s.running := rfl
@[simp] theorem setIndex_timersOn : (s.setIndex v).timersOn = s.timersOn := rfl
@[simp] theorem setIndex_endReason : (s.setIndex v).endReason = s.endReason := rfl
@[simp] theorem setIndex_out : (s.setIndex v).out = s.out := rfl
@[simp] theorem setIndex_cfg : (s.setIndex v).cfg = s.cfg := rfl
@[simp] theorem setIndex_moves : (s.setIndex v).moves = s.moves := rfl
@[simp] theorem setIndex_draws : (s.setIndex v).draws = s.draws := rfl
@[simp] theorem setIndex_reply : (s.setIndex v).reply = s.reply := rfl

end

/-! ## `setDelay` -/

section
variable (s : State) (v : Byte)

@[simp] theorem setDelay_mem : (s.setDelay v).mem = s.mem := rfl
@[simp] theorem setDelay_V : (s.setDelay v).V = s.V := rfl
@[simp] theorem setDelay_I : (s.setDelay v).I = s.I := rfl
@[simp] theorem setDelay_pc : (s.setDelay v).pc = s.pc := rfl
@[simp] theorem setDelay_stack : (s.setDelay v).stack = s.stack := rfl
@[simp] theorem setDelay_DT : (s.setDelay v).DT = v := rfl
@[simp] theorem setDelay_ST : (s.setDelay v).ST = s.ST := rfl
@[simp] theorem setDelay_keys : (s.setDelay v).keys = s.keys := rfl
@[simp] theorem setDelay_wait : (s.setDelay v).wait = s.wait := rfl
@[simp] theorem setDelay_disp : (s.setDelay v).disp = s.disp := rfl
@[simp] theorem setDelay_dirty : (s.setDelay v).dirty = s.dirty := rfl
@[simp] theorem setDelay_running : (s.setDelay v).running = s.running := rfl
@[simp] theorem setDelay_timersOn : (s.setDelay v).timersOn = s.timersOn := rfl
@[simp] theorem setDelay_endReason : (s.setDelay v).endReason = s.endReason := rfl
@[simp] theorem setDelay_out : (s.setDelay v).out = s.out := rfl
@[simp] theorem setDelay_cfg : (s.setDelay v).cfg = s.cfg := rfl
@[simp] theorem setDelay_moves : (s.setDelay v).moves = s.moves := rfl
@[simp] theorem setDelay_draws : (s.setDelay v).draws = s.draws := rfl
@[simp] theorem setDelay_reply : (s.setDelay v).reply = s.reply := rfl

end

/-! ## `setSound` -/

section
variable (s : State) (v : Byte)

@[simp] theorem setSound_mem : (s.setSound v).mem = s.mem := rfl
@[simp] theorem setSound_V : (s.setSound v).V = s.V := rfl
@[simp] theorem setSound_I : (s.setSound v).I = s.I := rfl
@[simp] theorem setSound_pc : (s.setSound v).pc = s.pc := rfl
@[simp] theorem setSound_stack : (s.setSound v).stack = s.stack := rfl
@[simp] theorem setSound_DT : (s.setSound v).DT = s.DT := rfl
@[simp] theorem setSound_ST : (s.setSound v).ST = v := rfl
@[simp] theorem setSound_keys : (s.setSound v).keys = s.keys := rfl
@[simp] theorem setSound_wait : (s.setSound v).wait = s.wait := rfl
@[simp] theorem setSound_disp : (s.setSound v).disp = s.disp := rfl
@[simp] theorem setSound_dirty : (s.setSound v).dirty = s.dirty := rfl
@[simp] theorem setSound_running : (s.setSound v).running = s.running := rfl
@[simp] theorem setSound_timersOn : (s.setSound v).timersOn = s.timersOn := rfl
@[simp] theorem setSound_endReason : (s.setSound v).endReason = s.endReason := rfl
@[simp] theorem setSound_out : (s.setSound v).out = s.out := rfl
@[simp] theorem setSound_cfg : (s.setSound v).cfg = s.cfg := rfl
@[simp] theorem setSound_moves : (s.setSound v).moves = s.moves := rfl
@[simp] theorem setSound_draws : (s.setSound v).draws = s.draws := rfl
@[simp] theorem setSound_reply : (s.setSound v).reply = s.reply := rfl

end

/-! ## `setKeys` -/

section
variable (s : State) (v : BitVec 16)

@[simp] theorem setKeys_mem : (s.setKeys v).mem = s.mem := rfl
@[simp] theorem setKeys_V : (s.setKeys v).V = s.V := rfl
@[simp] theorem setKeys_I : (s.setKeys v).I = s.I := rfl
@[simp] theorem setKeys_pc : (s.setKeys v).pc = s.pc := rfl
@[simp] theorem setKeys_stack : (s.setKeys v).stack = s.stack := rfl
@[simp] theorem setKeys_DT : (s.setKeys v).DT = s.DT := rfl
@[simp] theorem setKeys_ST : (s.setKeys v).ST = s.ST := rfl
@[simp] theorem setKeys_keys : (s.setKeys v).keys = v := rfl
@[simp] theorem setKeys_wait : (s.setKeys v).wait = s.wait := rfl
@[simp] theorem setKeys_disp : (s.setKeys v).disp = s.disp := rfl
@[simp] theorem setKeys_dirty : (s.setKeys v).dirty = s.dirty := rfl
@[simp] theorem setKeys_running : (s.setKeys v).running = s.running := rfl
@[simp] theorem setKeys_timersOn : (s.setKeys v).timersOn = s.timersOn := rfl
@[simp] theorem setKeys_endReason : (s.setKeys v).endReason = s.endReason := rfl
@[simp] theorem setKeys_out : (s.setKeys v).out = s.out := rfl
@[simp] theorem setKeys_cfg : (s.setKeys v).cfg = s.cfg := rfl
@[simp] theorem setKeys_moves : (s.setKeys v).moves = s.moves := rfl
@[simp] theorem setKeys_draws : (s.setKeys v).draws = s.draws := rfl
@[simp] theorem setKeys_reply : (s.setKeys v).reply = s.reply := rfl

end

/-! ## `setWait` -/

section
variable (s : State) (v : Option Reg)

@[simp] theorem setWait_mem : (s.setWait v).mem = s.mem := rfl
@[simp] theorem setWait_V : (s.setWait v).V = s.V := rfl
@[simp] theorem setWait_I : (s.setWait v).I = s.I := rfl
@[simp] theorem setWait_pc : (s.setWait v).pc = s.pc := rfl
@[simp] theorem setWait_stack : (s.setWait v).stack = s.stack := rfl
@[simp] theorem setWait_DT : (s.setWait v).DT = s.DT := rfl
@[simp] theorem setWait_ST : (s.setWait v).ST = s.ST := rfl
@[simp] theorem setWait_keys : (s.setWait v).keys = s.keys := rfl
@[simp] theorem setWait_wait : (s.setWait v).wait = v := rfl
@[simp] theorem setWait_disp : (s.setWait v).disp = s.disp := rfl
@[simp] theorem setWait_dirty : (s.setWait v).dirty = s.dirty := rfl
@[simp] theorem setWait_running : (s.setWait v).running = s.running := rfl
@[simp] theorem setWait_timersOn : (s.setWait v).timersOn = s.timersOn := rfl
@[simp] theorem setWait_endReason : (s.setWait v).endReason = s.endReason := rfl
@[simp] theorem setWait_out : (s.setWait v).out = s.out := rfl
@[simp] theorem setWait_cfg : (s.setWait v).cfg = s.cfg := rfl
@[simp] theorem setWait_moves : (s.setWait v).moves = s.moves := rfl
@[simp] theorem setWait_draws : (s.setWait v).draws = s.draws := rfl
@[simp] theorem setWait_reply : (s.setWait v).reply = s.reply := rfl

end

/-! ## `setPc` -/

section
variable (s : State) (v : Word)

@[simp] theorem setPc_mem : (s.setPc v).mem = s.mem := rfl
@[simp] theorem setPc_V : (s.setPc v).V = s.V := rfl
@[simp] theorem setPc_I : (s.setPc v).I = s.I := rfl
@[simp] theorem setPc_pc : (s.setPc v).pc = v := rfl
@[simp] theorem setPc_stack : (s.setPc v).stack = s.stack := rfl
@[simp] theorem setPc_DT : (s.setPc v).DT = s.DT := rfl
@[simp] theorem setPc_ST : (s.setPc v).ST = s.ST := rfl
@[simp] theorem setPc_keys : (s.setPc v).keys = s.keys := rfl
@[simp] theorem setPc_wait : (s.setPc v).wait = s.wait := rfl
@[simp] theorem setPc_disp : (s.setPc v).disp = s.disp := rfl
@[simp] theorem setPc_dirty : (s.setPc v).dirty = s.dirty := rfl
@[simp] theorem setPc_running : (s.setPc v).running = s.running := rfl
@[simp] theorem setPc_timersOn : (s.setPc v).timersOn = s.timersOn := rfl
@[simp] theorem setPc_endReason : (s.setPc v).endReason = s.endReason := rfl
@[simp] theorem setPc_out : (s.setPc v).out = s.out := rfl
@[simp] theorem setPc_cfg : (s.setPc v).cfg = s.cfg := rfl
@[simp] theorem setPc_moves : (s.setPc v).moves = s.moves := rfl
@[simp] theorem setPc_draws : (s.setPc v).draws = s.draws := rfl
@[simp] theorem setPc_reply : (s.setPc v).reply = s.reply := rfl

end

/-! ## `advance` -/

section
variable (s : State) 

@[simp] theorem advance_mem : (s.advance).mem = s.mem := rfl
@[simp] theorem advance_V : (s.advance).V = s.V := rfl
@[simp] theorem advance_I : (s.advance).I = s.I := rfl
@[simp] theorem advance_pc : (s.advance).pc = s.pc + 2 := rfl
@[simp] theorem advance_stack : (s.advance).stack = s.stack := rfl
@[simp] theorem advance_DT : (s.advance).DT = s.DT := rfl
@[simp] theorem advance_ST : (s.advance).ST = s.ST := rfl
@[simp] theorem advance_keys : (s.advance).keys = s.keys := rfl
@[simp] theorem advance_wait : (s.advance).wait = s.wait := rfl
@[simp] theorem advance_disp : (s.advance).disp = s.disp := rfl
@[simp] theorem advance_dirty : (s.advance).dirty = s.dirty := rfl
@[simp] theorem advance_running : (s.advance).running = s.running := rfl
@[simp] theorem advance_timersOn : (s.advance).timersOn = s.timersOn := rfl
@[simp] theorem advance_endReason : (s.advance).endReason = s.endReason := rfl
@[simp] theorem advance_out : (s.advance).out = s.out := rfl
@[simp] theorem advance_cfg : (s.advance).cfg = s.cfg := rfl
@[simp] theorem advance_moves : (s.advance).moves = s.moves := rfl
@[simp] theorem advance_draws : (s.advance).draws = s.draws := rfl
@[simp] theorem advance_reply : (s.advance).reply = s.reply := rfl

end

/-! ## `skipIf` -/

section
variable (s : State) (c : Bool)

@[simp] theorem skipIf_mem : (s.skipIf c).mem = s.mem := rfl
@[simp] theorem skipIf_V : (s.skipIf c).V = s.V := rfl
@[simp] theorem skipIf_I : (s.skipIf c).I = s.I := rfl
@[simp] theorem skipIf_pc : (s.skipIf c).pc = s.pc + if c then 4 else 2 := rfl
@[simp] theorem skipIf_stack : (s.skipIf c).stack = s.stack := rfl
@[simp] theorem skipIf_DT : (s.skipIf c).DT = s.DT := rfl
@[simp] theorem skipIf_ST : (s.skipIf c).ST = s.ST := rfl
@[simp] theorem skipIf_keys : (s.skipIf c).keys = s.keys := rfl
@[simp] theorem skipIf_wait : (s.skipIf c).wait = s.wait := rfl
@[simp] theorem skipIf_disp : (s.skipIf c).disp = s.disp := rfl
@[simp] theorem skipIf_dirty : (s.skipIf c).dirty = s.dirty := rfl
@[simp] theorem skipIf_running : (s.skipIf c).running = s.running := rfl
@[simp] theorem skipIf_timersOn : (s.skipIf c).timersOn = s.timersOn := rfl
@[simp] theorem skipIf_endReason : (s.skipIf c).endReason = s.endReason := rfl
@[simp] theorem skipIf_out : (s.skipIf c).out = s.out := rfl
@[simp] theorem skipIf_cfg : (s.skipIf c).cfg = s.cfg := rfl
@[simp] theorem skipIf_moves : (s.skipIf c).moves = s.moves := rfl
@[simp] theorem skipIf_draws : (s.skipIf c).draws = s.draws := rfl
@[simp] theorem skipIf_reply : (s.skipIf c).reply = s.reply := rfl

end

/-! ## `setDisplay` -/

section
variable (s : State) (d : Vector PixelRow 32)

@[simp] theorem setDisplay_mem : (s.setDisplay d).mem = s.mem := rfl
@[simp] theorem setDisplay_V : (s.setDisplay d).V = s.V := rfl
@[simp] theorem setDisplay_I : (s.setDisplay d).I = s.I := rfl
@[simp] theorem setDisplay_pc : (s.setDisplay d).pc = s.pc := rfl
@[simp] theorem setDisplay_stack : (s.setDisplay d).stack = s.stack := rfl
@[simp] theorem setDisplay_DT : (s.setDisplay d).DT = s.DT := rfl
@[simp] theorem setDisplay_ST : (s.setDisplay d).ST = s.ST := rfl
@[simp] theorem setDisplay_keys : (s.setDisplay d).keys = s.keys := rfl
@[simp] theorem setDisplay_wait : (s.setDisplay d).wait = s.wait := rfl
@[simp] theorem setDisplay_disp : (s.setDisplay d).disp = d := rfl
@[simp] theorem setDisplay_dirty : (s.setDisplay d).dirty = true := rfl
@[simp] theorem setDisplay_running : (s.setDisplay d).running = s.running := rfl
@[simp] theorem setDisplay_timersOn : (s.setDisplay d).timersOn = s.timersOn := rfl
@[simp] theorem setDisplay_endReason : (s.setDisplay d).endReason = s.endReason := rfl
@[simp] theorem setDisplay_out : (s.setDisplay d).out = s.out := rfl
@[simp] theorem setDisplay_cfg : (s.setDisplay d).cfg = s.cfg := rfl
@[simp] theorem setDisplay_moves : (s.setDisplay d).moves = s.moves := rfl
@[simp] theorem setDisplay_draws : (s.setDisplay d).draws = s.draws := rfl
@[simp] theorem setDisplay_reply : (s.setDisplay d).reply = s.reply := rfl

end

/-! ## `emit` -/

section
variable (s : State) (ev : Event)

@[simp] theorem emit_mem : (s.emit ev).mem = s.mem := rfl
@[simp] theorem emit_V : (s.emit ev).V = s.V := rfl
@[simp] theorem emit_I : (s.emit ev).I = s.I := rfl
@[simp] theorem emit_pc : (s.emit ev).pc = s.pc := rfl
@[simp] theorem emit_stack : (s.emit ev).stack = s.stack := rfl
@[simp] theorem emit_DT : (s.emit ev).DT = s.DT := rfl
@[simp] theorem emit_ST : (s.emit ev).ST = s.ST := rfl
@[simp] theorem emit_keys : (s.emit ev).keys = s.keys := rfl
@[simp] theorem emit_wait : (s.emit ev).wait = s.wait := rfl
@[simp] theorem emit_disp : (s.emit ev).disp = s.disp := rfl
@[simp] theorem emit_dirty : (s.emit ev).dirty = s.dirty := rfl
@[simp] theorem emit_running : (s.emit ev).running = s.running := rfl
@[simp] theorem emit_timersOn : (s.emit ev).timersOn = s.timersOn := rfl
@[simp] theorem emit_endReason : (s.emit ev).endReason = s.endReason := rfl
@[simp] theorem emit_out : (s.emit ev).out = s.out ++ [ev] := rfl
@[simp] theorem emit_cfg : (s.emit ev).cfg = s.cfg := rfl
@[simp] theorem emit_moves : (s.emit ev).moves = s.moves := rfl
@[simp] theorem emit_draws : (s.emit ev).draws = s.draws := rfl
@[simp] theorem emit_reply : (s.emit ev).reply = s.reply := rfl

end

/-! ## `countDraw` -/

section
variable (s : State) 

@[simp] theorem countDraw_mem : (s.countDraw).mem = s.mem := rfl
@[simp] theorem countDraw_V : (s.countDraw).V = s.V := rfl
@[simp] theorem countDraw_I : (s.countDraw).I = s.I := rfl
@[simp] theorem countDraw_pc : (s.countDraw).pc = s.pc := rfl
@[simp] theorem countDraw_stack : (s.countDraw).stack = s.stack := rfl
@[simp] theorem countDraw_DT : (s.countDraw).DT = s.DT := rfl
@[simp] theorem countDraw_ST : (s.countDraw).ST = s.ST := rfl
@[simp] theorem countDraw_keys : (s.countDraw).keys = s.keys := rfl
@[simp] theorem countDraw_wait : (s.countDraw).wait = s.wait := rfl
@[simp] theorem countDraw_disp : (s.countDraw).disp = s.disp := rfl
@[simp] theorem countDraw_dirty : (s.countDraw).dirty = s.dirty := rfl
@[simp] theorem countDraw_running : (s.countDraw).running = s.running := rfl
@[simp] theorem countDraw_timersOn : (s.countDraw).timersOn = s.timersOn := rfl
@[simp] theorem countDraw_endReason : (s.countDraw).endReason = s.endReason := rfl
@[simp] theorem countDraw_out : (s.countDraw).out = s.out := rfl
@[simp] theorem countDraw_cfg : (s.countDraw).cfg = s.cfg := rfl
@[simp] theorem countDraw_moves : (s.countDraw).moves = s.moves := rfl
@[simp] theorem countDraw_draws : (s.countDraw).draws = s.draws + 1 := rfl
@[simp] theorem countDraw_reply : (s.countDraw).reply = s.reply := rfl

end

/-! ## `endRun` -/

section
variable (s : State) (e : EndReason)

@[simp] theorem endRun_mem : (endRun e s).mem = s.mem := rfl
@[simp] theorem endRun_V : (endRun e s).V = s.V := rfl
@[simp] theorem endRun_I : (endRun e s).I = s.I := rfl
@[simp] theorem endRun_pc : (endRun e s).pc = s.pc := rfl
@[simp] theorem endRun_stack : (endRun e s).stack = s.stack := rfl
@[simp] theorem endRun_DT : (endRun e s).DT = s.DT := rfl
@[simp] theorem endRun_ST : (endRun e s).ST = s.ST := rfl
@[simp] theorem endRun_keys : (endRun e s).keys = s.keys := rfl
@[simp] theorem endRun_wait : (endRun e s).wait = s.wait := rfl
@[simp] theorem endRun_disp : (endRun e s).disp = s.disp := rfl
@[simp] theorem endRun_dirty : (endRun e s).dirty = s.dirty := rfl
@[simp] theorem endRun_running : (endRun e s).running = false := rfl
@[simp] theorem endRun_timersOn : (endRun e s).timersOn = if s.cfg.timersAfterEnd = .stops then false else s.timersOn := rfl
@[simp] theorem endRun_endReason : (endRun e s).endReason = some e := rfl
@[simp] theorem endRun_out : (endRun e s).out = s.out := rfl
@[simp] theorem endRun_cfg : (endRun e s).cfg = s.cfg := rfl
@[simp] theorem endRun_moves : (endRun e s).moves = s.moves := rfl
@[simp] theorem endRun_draws : (endRun e s).draws = s.draws := rfl
@[simp] theorem endRun_reply : (endRun e s).reply = s.reply := rfl

end

/-! ## `raiseError` -/

section
variable (s : State) (k : ErrorKind) (w : Word)

@[simp] theorem raiseError_mem : (raiseError k w s).mem = s.mem := rfl
@[simp] theorem raiseError_V : (raiseError k w s).V = s.V := rfl
@[simp] theorem raiseError_I : (raiseError k w s).I = s.I := rfl
@[simp] theorem raiseError_pc : (raiseError k w s).pc = s.pc := rfl
@[simp] theorem raiseError_stack : (raiseError k w s).stack = s.stack := rfl
@[simp] theorem raiseError_DT : (raiseError k w s).DT = s.DT := rfl
@[simp] theorem raiseError_ST : (raiseError k w s).ST = s.ST := rfl
@[simp] theorem raiseError_keys : (raiseError k w s).keys = s.keys := rfl
@[simp] theorem raiseError_wait : (raiseError k w s).wait = s.wait := rfl
@[simp] theorem raiseError_disp : (raiseError k w s).disp = s.disp := rfl
@[simp] theorem raiseError_dirty : (raiseError k w s).dirty = s.dirty := rfl
@[simp] theorem raiseError_running : (raiseError k w s).running = false := rfl
@[simp] theorem raiseError_timersOn : (raiseError k w s).timersOn = if s.cfg.timersAfterEnd = .stops then false else s.timersOn := rfl
@[simp] theorem raiseError_endReason : (raiseError k w s).endReason = some (.error k s.pc w) := rfl
@[simp] theorem raiseError_out : (raiseError k w s).out = s.out := rfl
@[simp] theorem raiseError_cfg : (raiseError k w s).cfg = s.cfg := rfl
@[simp] theorem raiseError_moves : (raiseError k w s).moves = s.moves := rfl
@[simp] theorem raiseError_draws : (raiseError k w s).draws = s.draws := rfl
@[simp] theorem raiseError_reply : (raiseError k w s).reply = s.reply := rfl

end

end Sys2Proof.Machine
end

