-- ==== Sys2Proof/Laws/Display.lean ====
section
/-!
SUPPORT. The laws of the display buffer: a pixel as a bit of its row, what one flip does, and what a clear leaves.
-/

namespace Sys2Proof.Machine

theorem pix_eq (s : State) (col row : Nat) (h : row < 32) : s.pix col row = (s.disp[row]).getLsbD col := by
  simp [State.pix, h]

theorem Canvas.pix_eq (c : Canvas) (col row : Nat) (h : row < 32) : c.pix col row = (c.disp[row]).getLsbD col := by
  simp [Canvas.pix, h]

/-- A state's pixel is its display buffer's. -/
theorem pix_eq_canvas (s : State) (b : Bool) (col row : Nat) : s.pix col row = Canvas.pix ⟨s.disp, b⟩ col row := rfl

/-- One flip (R101): the pixel it names is toggled, every other pixel is as before. -/
theorem Canvas.pix_flip (c : Canvas) (col row col' row' : Nat) (h : col < 64) (hr' : row' < 32) :
    (c.flip col row).pix col' row' = (c.pix col' row' ^^ (decide (col' = col) && decide (row' = row))) := by
  rw [Canvas.pix_eq _ _ _ hr', Canvas.pix_eq _ _ _ hr']
  simp only [Canvas.flip]
  by_cases hrow : row = row'
  · subst hrow
    simp only [Vector.getElem_setIfInBounds_self, BitVec.getLsbD_xor, BitVec.getLsbD_twoPow, decide_true, Bool.and_true,
      Vector.getElem?_eq_getElem hr', Option.getD_some]
    by_cases hcol : col = col'
    · subst hcol
      simp [h]
    · simp [hcol, Ne.symm hcol]
  · rw [Vector.getElem_setIfInBounds_ne hr' hrow]
    simp [Ne.symm hrow]

/-- One flip's collision: the pixel was set. -/
theorem Canvas.flip_collision (c : Canvas) (col row : Nat) :
    (c.flip col row).collision = (c.collision || c.pix col row) := rfl

/-- A cleared display has no set pixel (R100). -/
theorem pix_clear (s : State) (col row : Nat) : (s.setDisplay (Vector.replicate 32 0)).pix col row = false := by
  by_cases h : row < 32
  · simp [pix_eq _ _ _ h]
  · simp [State.pix, h]

end Sys2Proof.Machine
end

