-- ==== Sys2Proof/Laws/Memory.lean ====
section
/-!
SUPPORT. The laws of memory: what a read gives after each operation, and that every operation keeps the canonical form.
-/

namespace Sys2Proof.Machine

/-! ## Reads -/

theorem lookup_insert (m : Memory) (a c : Nat) (b : Byte) :
    Memory.lookup (Memory.insert m a b) c = if a = c then some b else Memory.lookup m c := by
  induction m with
  | nil => rfl
  | cons e rest ih =>
    obtain ⟨k, d⟩ := e
    simp only [Memory.insert]
    split
    · rfl
    · split
      · next hak =>
        subst hak
        simp only [Memory.lookup]
        split <;> rfl
      · simp only [Memory.lookup, ih]
        split <;> split <;> first | rfl | omega

theorem lookup_erase (m : Memory) (a c : Nat) :
    Memory.lookup (Memory.erase m a) c = if a = c then none else Memory.lookup m c := by
  induction m with
  | nil => simp [Memory.erase, Memory.lookup]
  | cons e rest ih =>
    obtain ⟨k, d⟩ := e
    simp only [Memory.erase]
    split
    · rw [ih]
      simp only [Memory.lookup]
      split <;> [rfl; (split <;> first | rfl | omega)]
    · simp only [Memory.lookup, ih]
      split <;> split <;> first | rfl | omega

/-- A read after a write: the written byte at its address, every other byte as before. -/
theorem read_write (font : List Byte) (m : Memory) (a c : Nat) (b : Byte) :
    Memory.read font (Memory.write font m a b) c = if a = c then b else Memory.read font m c := by
  unfold Memory.read Memory.write
  split
  · rw [lookup_erase]
    split
    · next hb hac => subst hac; simp [hb]
    · rfl
  · rw [lookup_insert]
    split <;> rfl

/-- A read after a write of several bytes. -/
theorem read_writeBytes (font : List Byte) (bs : List Byte) (m : Memory) (a c : Nat) :
    Memory.read font (Memory.writeBytes font m a bs) c =
      if a ≤ c ∧ c < a + bs.length then bs.getD (c - a) 0 else Memory.read font m c := by
  induction bs generalizing m a with
  | nil =>
    rw [if_neg (by simp only [List.length_nil]; omega)]
    rfl
  | cons b bs ih =>
    rw [Memory.writeBytes, ih, read_write]
    simp only [List.length_cons]
    by_cases hac : a = c
    · subst hac
      rw [if_neg (by omega), if_pos rfl, if_pos (by omega)]
      simp
    · by_cases hin : a + 1 ≤ c ∧ c < a + 1 + bs.length
      · rw [if_pos hin, if_pos (by omega)]
        obtain ⟨k, rfl⟩ : ∃ k, c = a + 1 + k := ⟨c - (a + 1), by omega⟩
        rw [show a + 1 + k - (a + 1) = k by omega, show a + 1 + k - a = k + 1 by omega]
        rfl
      · rw [if_neg hin, if_neg hac, if_neg (by omega)]

/-- The bytes a read of several bytes lists. -/
theorem readBytes_getD (font : List Byte) (m : Memory) (a n j : Nat) (h : j < n) :
    (Memory.readBytes font m a n).getD j 0 = Memory.read font m (a + j) := by
  simp [Memory.readBytes, List.getD, h]

@[simp] theorem readBytes_length (font : List Byte) (m : Memory) (a n : Nat) :
    (Memory.readBytes font m a n).length = n := by
  simp [Memory.readBytes]

/-! ## The canonical form -/

theorem wfAbove_mono (font : List Byte) (m : Memory) (low low' : Nat) (hl : low' ≤ low)
    (h : Memory.wfAbove font low m = true) : Memory.wfAbove font low' m = true := by
  cases m with
  | nil => rfl
  | cons e rest =>
    simp only [Memory.wfAbove, Bool.and_eq_true, decide_eq_true_eq] at h ⊢
    exact ⟨⟨⟨by omega, h.1.1.2⟩, h.1.2⟩, h.2⟩

theorem wfAbove_insert (font : List Byte) (m : Memory) (low a : Nat) (b : Byte) (hl : low ≤ a) (ha : a < 4096)
    (hb : b ≠ Memory.unlisted font a) (h : Memory.wfAbove font low m = true) :
    Memory.wfAbove font low (Memory.insert m a b) = true := by
  induction m generalizing low with
  | nil => simp [Memory.insert, Memory.wfAbove, hl, ha, hb]
  | cons e rest ih =>
    obtain ⟨k, d⟩ := e
    simp only [Memory.wfAbove, Bool.and_eq_true, decide_eq_true_eq] at h
    simp only [Memory.insert]
    split
    · simp only [Memory.wfAbove, Bool.and_eq_true, decide_eq_true_eq]
      exact ⟨⟨⟨hl, ha⟩, hb⟩, ⟨⟨by omega, h.1.1.2⟩, h.1.2⟩, h.2⟩
    · split
      · next hak =>
        subst hak
        simp only [Memory.wfAbove, Bool.and_eq_true, decide_eq_true_eq]
        exact ⟨⟨⟨hl, ha⟩, hb⟩, h.2⟩
      · simp only [Memory.wfAbove, Bool.and_eq_true, decide_eq_true_eq]
        exact ⟨h.1, ih (k + 1) (by omega) h.2⟩

theorem wfAbove_erase (font : List Byte) (m : Memory) (low a : Nat) (h : Memory.wfAbove font low m = true) :
    Memory.wfAbove font low (Memory.erase m a) = true := by
  induction m generalizing low with
  | nil => rfl
  | cons e rest ih =>
    obtain ⟨k, d⟩ := e
    simp only [Memory.wfAbove, Bool.and_eq_true, decide_eq_true_eq] at h
    simp only [Memory.erase]
    split
    · exact wfAbove_mono font _ (k + 1) low (by omega) (ih (k + 1) h.2)
    · simp only [Memory.wfAbove, Bool.and_eq_true, decide_eq_true_eq]
      exact ⟨h.1, ih (k + 1) h.2⟩

/-- A write inside memory keeps the canonical form. -/
theorem wf_write (font : List Byte) (m : Memory) (a : Nat) (b : Byte) (ha : a < 4096)
    (h : Memory.wf font m = true) : Memory.wf font (Memory.write font m a b) = true := by
  unfold Memory.write
  split
  · exact wfAbove_erase font m 0 a h
  · next hb => exact wfAbove_insert font m 0 a b (Nat.zero_le a) ha hb h

/-- A write of several bytes inside memory keeps the canonical form. -/
theorem wf_writeBytes (font : List Byte) (bs : List Byte) (m : Memory) (a : Nat) (ha : spanExists a bs.length)
    (h : Memory.wf font m = true) : Memory.wf font (Memory.writeBytes font m a bs) = true := by
  induction bs generalizing m a with
  | nil => exact h
  | cons b bs ih =>
    rcases ha with ha | ha
    · exact absurd ha (by simp)
    · simp only [List.length_cons] at ha
      exact ih _ (a + 1) (.inr (by omega)) (wf_write font m a b (by omega) h)

/-- The reset memory is canonical. -/
theorem wf_reset : Memory.wf State.reset.cfg.font State.reset.mem = true := rfl

/-! ## `MemRead` and `MemWrite` of a state (R40) -/

/-- Everything `memRead` can do. -/
theorem memRead_cases (a n : Nat) (s : State) :
    (spanExists a n ∧ memRead a n s = some (Memory.readBytes s.cfg.font s.mem a n)) ∨
      (¬ spanExists a n ∧ memRead a n s = none) := by
  by_cases h : spanExists a n
  · exact .inl ⟨h, if_pos h⟩
  · exact .inr ⟨h, if_neg h⟩

/-- Everything `memWrite` can do. -/
theorem memWrite_cases (a : Nat) (bs : List Byte) (s : State) :
    (spanExists a bs.length ∧ memWrite a bs s = some (s.setMem (Memory.writeBytes s.cfg.font s.mem a bs))) ∨
      (¬ spanExists a bs.length ∧ memWrite a bs s = none) := by
  by_cases h : spanExists a bs.length
  · exact .inl ⟨h, if_pos h⟩
  · exact .inr ⟨h, if_neg h⟩

/-- A byte depends on memory and configuration alone. -/
theorem byteAt_congr {s t : State} (hm : t.mem = s.mem) (hc : t.cfg = s.cfg) (a : Nat) : t.byteAt a = s.byteAt a := by
  simp only [State.byteAt, hm, hc]

/-- A byte after a store of `bs` at `a`. -/
theorem byteAt_writeBytes (s : State) (a : Nat) (bs : List Byte) (c : Nat) :
    (s.setMem (Memory.writeBytes s.cfg.font s.mem a bs)).byteAt c =
      if a ≤ c ∧ c < a + bs.length then bs.getD (c - a) 0 else s.byteAt c :=
  read_writeBytes s.cfg.font bs s.mem a c

end Sys2Proof.Machine
end

