-- ==== Sys2Proof/Laws/Registers.lean ====
section
/-!
SUPPORT. The laws of registers, flags, the call stack, keys and timers: one lemma per shared operation saying what it can do.
-/

namespace Sys2Proof.Machine

/-! ## General registers (R19) -/

theorem reg_setReg (s : State) (r q : Reg) (v : Byte) : (s.setReg r v).reg q = if q = r then v else s.reg q := by
  simp only [State.reg, setReg_V]
  by_cases h : q = r
  · subst h; simp
  · rw [if_neg h]
    exact Vector.getElem_set_ne (by omega) _ (fun e => h (Fin.ext e.symm))

@[simp] theorem reg_setReg_self (s : State) (r : Reg) (v : Byte) : (s.setReg r v).reg r = v := by
  rw [reg_setReg, if_pos rfl]

theorem reg_setReg_ne (s : State) (r q : Reg) (v : Byte) (h : q ≠ r) : (s.setReg r v).reg q = s.reg q := by
  rw [reg_setReg, if_neg h]

theorem reg_setFlag (s : State) (q : Reg) (v : Byte) : (s.setFlag v).reg q = if q = regVF then v else s.reg q :=
  reg_setReg s regVF q v

theorem loadRegs_getElem (bs : List Byte) (V : Vector Byte 16) (j k : Nat) (hk : k < 16) :
    (loadRegs V j bs)[k] = if j ≤ k then bs.getD (k - j) V[k] else V[k] := by
  induction bs generalizing V j with
  | nil => simp [loadRegs]
  | cons b bs ih =>
    rw [loadRegs, ih]
    by_cases h : j = k
    · subst h
      rw [if_neg (by omega), if_pos (Nat.le_refl _)]
      simp
    · by_cases h2 : j + 1 ≤ k
      · rw [if_pos h2, if_pos (by omega)]
        obtain ⟨d, rfl⟩ : ∃ d, k = j + 1 + d := ⟨k - (j + 1), by omega⟩
        rw [show j + 1 + d - (j + 1) = d by omega, show j + 1 + d - j = d + 1 by omega]
        simp [h]
      · rw [if_neg h2, if_neg (by omega)]
        simp [h]

/-- A register after a block load: its byte where the block has one, else as before (R99). -/
theorem reg_setRegs (s : State) (bs : List Byte) (q : Reg) : (s.setRegs bs).reg q = bs.getD q.val (s.reg q) := by
  have h := loadRegs_getElem bs s.V 0 q.val q.isLt
  rw [if_pos (Nat.zero_le _)] at h
  exact h

/-- A register depends on the register file alone. -/
theorem reg_congr {s t : State} (h : t.V = s.V) (r : Reg) : t.reg r = s.reg r := by
  simp only [State.reg, h]

/-- The register list a store writes: entry `j` is `V[j]` (R98). -/
theorem regsUpTo_getD (s : State) (x : Reg) (j : Nat) (h : j < x.val + 1) :
    (s.regsUpTo x).getD j 0 = s.reg ⟨j, by omega⟩ := by
  simp [State.regsUpTo, State.reg, List.getD, h]

@[simp] theorem regsUpTo_length (s : State) (x : Reg) : (s.regsUpTo x).length = x.val + 1 := by
  simp only [State.regsUpTo, List.length_take, Vector.length_toList]
  omega

@[simp] theorem bcdDigits_length (v : Byte) : (bcdDigits v).length = 3 := rfl

/-! ## Flags (R20) -/

theorem flagByte_cases (b : Bool) : (b = true ∧ flagByte b = 1) ∨ (b = false ∧ flagByte b = 0) := by
  cases b <;> simp [flagByte]

/-! ## The call stack (R25) -/

/-- Everything `push` can do. -/
theorem push_cases (s : State) (v : Word) :
    (s.stack.length < 16 ∧ s.push v = some (s.setStack (v :: s.stack))) ∨
      (16 ≤ s.stack.length ∧ s.push v = none) := by
  by_cases h : s.stack.length < 16
  · exact .inl ⟨h, if_pos h⟩
  · exact .inr ⟨Nat.le_of_not_lt h, if_neg h⟩

/-- Everything `pop` can do. -/
theorem pop_cases (s : State) :
    (∃ v rest, s.stack = v :: rest ∧ s.pop = some (v, s.setStack rest)) ∨ (s.stack = [] ∧ s.pop = none) := by
  cases h : s.stack with
  | nil => exact .inr ⟨rfl, by simp [State.pop, h]⟩
  | cons v rest => exact .inl ⟨v, rest, rfl, by simp [State.pop, h]⟩

/-! ## Timers (R26, R121) -/

theorem countDown_toNat (t : Byte) : (countDown t).toNat = t.toNat - 1 := by
  unfold countDown
  split
  · next h => simp [h]
  · next h =>
    have h1 : t.toNat ≠ 0 := fun e => h (BitVec.eq_of_toNat_eq e)
    have h2 : (1 : Byte) ≤ t := by
      rw [BitVec.le_def]
      show 1 ≤ t.toNat
      omega
    rw [BitVec.toNat_sub_of_le h2]
    rfl

/-- Everything a tick can do: the two counters, and at most one beep. -/
theorem timerTick_cases (s : State) :
    (s.ST = 1 ∧ s.cfg.beepHook = true ∧
        timerTick s = ((s.setDelay (countDown s.DT)).setSound (countDown s.ST)).emit .beep) ∨
      (¬ (s.ST = 1 ∧ s.cfg.beepHook = true) ∧
        timerTick s = (s.setDelay (countDown s.DT)).setSound (countDown s.ST)) := by
  by_cases h : s.ST = 1 ∧ s.cfg.beepHook = true
  · exact .inl ⟨h.1, h.2, if_pos h⟩
  · exact .inr ⟨h, if_neg h⟩

/-! ## Keys (R27, R127, R128) -/

theorem pressKey_bit (s : State) (k j : Key) : (s.pressKey k).keys.getLsbD j = (decide (j = k) || s.keys.getLsbD j) := by
  simp only [State.pressKey, setKeys_keys, BitVec.getLsbD_or, BitVec.getLsbD_twoPow]
  by_cases h : j = k
  · subst h; simp
  · have : ¬ (k.val = j.val) := fun e => h (Fin.ext e.symm)
    simp [h, this]

theorem releaseKey_bit (s : State) (k j : Key) :
    (s.releaseKey k).keys.getLsbD j = (!decide (j = k) && s.keys.getLsbD j) := by
  simp only [State.releaseKey, setKeys_keys, BitVec.getLsbD_and, BitVec.getLsbD_not, BitVec.getLsbD_twoPow]
  by_cases h : j = k
  · subst h; simp
  · have : ¬ (k.val = j.val) := fun e => h (Fin.ext e.symm)
    simp [h, this]

/-! ## Whose turn (R120) -/

theorem takeTurn_nil (s : State) (h : s.moves = []) : s.takeTurn = (.instruction, s) := by
  simp [State.takeTurn, h]

theorem takeTurn_cons (s : State) (m : Move) (rest : List Move) (h : s.moves = m :: rest) :
    s.takeTurn = (m, { s with moves := rest }) := by
  simp [State.takeTurn, h]

end Sys2Proof.Machine
end

