-- ==== Sys2Proof/Laws/Frame.lean ====
section
/-!
SUPPORT. The frame of each named update, and how frames compose: an instruction's frame is composed from those of the
operations it is made of.
-/

namespace Sys2Proof.Machine

/-! ## Composition -/

theorem Frame.refl (s : State) : Frame [] s s := by
  constructor <;> intros <;> rfl

/-- A frame that names more parts follows from one that names fewer. -/
theorem Frame.mono {P Q : List Part} {s t : State} (h : Frame P s t) (hPQ : ∀ p ∈ P, p ∈ Q) : Frame Q s t where
  reg r hr := h.reg r fun hp => hr (hPQ _ hp)
  index hr := h.index fun hp => hr (hPQ _ hp)
  stack hr := h.stack fun hp => hr (hPQ _ hp)
  delay hr := h.delay fun hp => hr (hPQ _ hp)
  sound hr := h.sound fun hp => hr (hPQ _ hp)
  keys hr := h.keys fun hp => hr (hPQ _ hp)
  wait hr := h.wait fun hp => hr (hPQ _ hp)
  display hr := h.display fun hp => hr (hPQ _ hp)
  dirty hr := h.dirty fun hp => hr (hPQ _ hp)
  running hr := h.running fun hp => hr (hPQ _ hp)
  timersOn hr := h.timersOn fun hp => hr (hPQ _ hp)
  endReason hr := h.endReason fun hp => hr (hPQ _ hp)
  out hr := h.out fun hp => hr (hPQ _ hp)
  memory hr := h.memory fun hp => hr (hPQ _ hp)
  draws hr := h.draws fun hp => hr (hPQ _ hp)
  cfg := h.cfg
  moves := h.moves
  reply := h.reply

/-- Two changes in a row write the parts of both. -/
theorem Frame.trans {P Q : List Part} {s t u : State} (h1 : Frame P s t) (h2 : Frame Q t u) : Frame (P ++ Q) s u := by
  have g1 : Frame (P ++ Q) s t := h1.mono fun _ hp => List.mem_append_left _ hp
  have g2 : Frame (P ++ Q) t u := h2.mono fun _ hp => List.mem_append_right _ hp
  exact {
    reg := fun r hr => (g2.reg r hr).trans (g1.reg r hr)
    index := fun hr => (g2.index hr).trans (g1.index hr)
    stack := fun hr => (g2.stack hr).trans (g1.stack hr)
    delay := fun hr => (g2.delay hr).trans (g1.delay hr)
    sound := fun hr => (g2.sound hr).trans (g1.sound hr)
    keys := fun hr => (g2.keys hr).trans (g1.keys hr)
    wait := fun hr => (g2.wait hr).trans (g1.wait hr)
    display := fun hr => (g2.display hr).trans (g1.display hr)
    dirty := fun hr => (g2.dirty hr).trans (g1.dirty hr)
    running := fun hr => (g2.running hr).trans (g1.running hr)
    timersOn := fun hr => (g2.timersOn hr).trans (g1.timersOn hr)
    endReason := fun hr => (g2.endReason hr).trans (g1.endReason hr)
    out := fun hr => (g2.out hr).trans (g1.out hr)
    memory := fun hr a => (g2.memory hr a).trans (g1.memory hr a)
    draws := fun hr => (g2.draws hr).trans (g1.draws hr)
    cfg := g2.cfg.trans g1.cfg
    moves := g2.moves.trans g1.moves
    reply := g2.reply.trans g1.reply }

/-- A change of `pc` after another change adds nothing to its frame. -/
theorem Frame.setPc {P : List Part} {s t : State} (h : Frame P s t) (v : Word) : Frame P s (t.setPc v) where
  reg := h.reg
  index := h.index
  stack := h.stack
  delay := h.delay
  sound := h.sound
  keys := h.keys
  wait := h.wait
  display := h.display
  dirty := h.dirty
  running := h.running
  timersOn := h.timersOn
  endReason := h.endReason
  out := h.out
  memory := h.memory
  draws := h.draws
  cfg := h.cfg
  moves := h.moves
  reply := h.reply

theorem Frame.advance {P : List Part} {s t : State} (h : Frame P s t) : Frame P s t.advance := h.setPc _

theorem Frame.skipIf {P : List Part} {s t : State} (h : Frame P s t) (c : Bool) : Frame P s (t.skipIf c) := h.setPc _

/-! ## The named updates -/

section
variable (s : State)

theorem frame_setReg (r : Reg) (v : Byte) : Frame [.reg r] s (s.setReg r v) := by
  constructor <;> intros <;> first | rfl | skip
  next q hq => exact reg_setReg_ne s r q v fun e => hq (e ▸ List.mem_singleton.mpr rfl)

theorem frame_setFlag (v : Byte) : Frame [.reg regVF] s (s.setFlag v) := frame_setReg s regVF v

theorem frame_setIndex (v : Word) : Frame [.index] s (s.setIndex v) := by
  constructor <;> intros <;> first | rfl | simp_all

theorem frame_setStack (l : List Word) : Frame [.stack] s (s.setStack l) := by
  constructor <;> intros <;> first | rfl | simp_all

theorem frame_setDelay (v : Byte) : Frame [.delay] s (s.setDelay v) := by
  constructor <;> intros <;> first | rfl | simp_all

theorem frame_setSound (v : Byte) : Frame [.sound] s (s.setSound v) := by
  constructor <;> intros <;> first | rfl | simp_all

theorem frame_setKeys (v : BitVec 16) : Frame [.keys] s (s.setKeys v) := by
  constructor <;> intros <;> first | rfl | simp_all

theorem frame_setWait (v : Option Reg) : Frame [.wait] s (s.setWait v) := by
  constructor <;> intros <;> first | rfl | simp_all

theorem frame_setDisplay (d : Vector PixelRow 32) : Frame [.display, .dirty] s (s.setDisplay d) := by
  constructor <;> intros <;> first | rfl | simp_all

theorem frame_emit (ev : Event) : Frame [.out] s (s.emit ev) := by
  constructor <;> intros <;> first | rfl | simp_all

theorem frame_countDraw : Frame [.draws] s s.countDraw := by
  constructor <;> intros <;> first | rfl | simp_all

/-- A store: every byte outside the stored ones is unchanged too (`byteAt_writeBytes`). -/
theorem frame_setMem (m : Memory) : Frame [.memory] s (s.setMem m) := by
  constructor <;> intros <;> first | rfl | simp_all

theorem frame_endRun (e : EndReason) : Frame [.running, .timersOn, .endReason] s (endRun e s) := by
  constructor <;> intros <;> first | rfl | simp_all

end

/-- The registers of a block load are V0 to Vx. -/
theorem mem_regsTo (x r : Reg) : Part.reg r ∈ regsTo x ↔ r ≤ x := by
  simp [regsTo]

theorem frame_setRegs (s : State) (bs : List Byte) (x : Reg) (h : bs.length = x.val + 1) :
    Frame (regsTo x) s (s.setRegs bs) where
  reg r hr := by
    rw [mem_regsTo, Fin.le_def] at hr
    rw [reg_setRegs, List.getD, List.getElem?_eq_none (by omega)]
    rfl
  index _ := rfl
  stack _ := rfl
  delay _ := rfl
  sound _ := rfl
  keys _ := rfl
  wait _ := rfl
  display _ := rfl
  dirty _ := rfl
  running _ := rfl
  timersOn _ := rfl
  endReason _ := rfl
  out _ := rfl
  memory _ _ := rfl
  draws _ := rfl
  cfg := rfl
  moves := rfl
  reply := rfl

/-! ## The end of a run (R111, R118) -/

/-- All that `end_run` does. -/
theorem endRun_endedBy (e : EndReason) (s : State) : EndedBy e s (endRun e s) :=
  ⟨frame_endRun s e, rfl, rfl, rfl, rfl⟩

/-- All that raising an error does. -/
theorem raiseError_endedBy (k : ErrorKind) (w : Word) (s : State) :
    EndedBy (.error k s.pc w) s (raiseError k w s) :=
  endRun_endedBy _ s

end Sys2Proof.Machine
end

