-- ==== Sys2Proof/Laws/PerInstr.lean ====
section
/-!
SUPPORT. The families of LAWS.json: one statement about an instruction as syntax, one lemma per constructor.
-/

namespace Sys2Proof.Laws

/-- The encoder's word matches the instruction's row of the opcode map: `w & mask = match` (R56). -/
def EncodesItsRow.Statement (i : Instr) : Prop := encode i &&& i.row.mask = i.row.pattern

theorem EncodesItsRow.cls : EncodesItsRow.Statement (.cls) :=
  rfl

theorem EncodesItsRow.ret : EncodesItsRow.Statement (.ret) :=
  rfl

theorem EncodesItsRow.halt : EncodesItsRow.Statement (.halt) :=
  rfl

theorem EncodesItsRow.jp (nnn : Addr12) : EncodesItsRow.Statement (.jp nnn) :=
  (packNNN_and_family _ _).trans rfl

theorem EncodesItsRow.call (nnn : Addr12) : EncodesItsRow.Statement (.call nnn) :=
  (packNNN_and_family _ _).trans rfl

theorem EncodesItsRow.seVxKk (x : Reg) (kk : Byte) : EncodesItsRow.Statement (.seVxKk x kk) :=
  (packXKK_and_family _ _ _).trans rfl

theorem EncodesItsRow.sneVxKk (x : Reg) (kk : Byte) : EncodesItsRow.Statement (.sneVxKk x kk) :=
  (packXKK_and_family _ _ _).trans rfl

theorem EncodesItsRow.seVxVy (x y : Reg) : EncodesItsRow.Statement (.seVxVy x y) :=
  (packXYN_and_nibble _ _ _ _).trans rfl

theorem EncodesItsRow.ldVxKk (x : Reg) (kk : Byte) : EncodesItsRow.Statement (.ldVxKk x kk) :=
  (packXKK_and_family _ _ _).trans rfl

theorem EncodesItsRow.addVxKk (x : Reg) (kk : Byte) : EncodesItsRow.Statement (.addVxKk x kk) :=
  (packXKK_and_family _ _ _).trans rfl

theorem EncodesItsRow.ldVxVy (x y : Reg) : EncodesItsRow.Statement (.ldVxVy x y) :=
  (packXYN_and_nibble _ _ _ _).trans rfl

theorem EncodesItsRow.orVxVy (x y : Reg) : EncodesItsRow.Statement (.orVxVy x y) :=
  (packXYN_and_nibble _ _ _ _).trans rfl

theorem EncodesItsRow.andVxVy (x y : Reg) : EncodesItsRow.Statement (.andVxVy x y) :=
  (packXYN_and_nibble _ _ _ _).trans rfl

theorem EncodesItsRow.xorVxVy (x y : Reg) : EncodesItsRow.Statement (.xorVxVy x y) :=
  (packXYN_and_nibble _ _ _ _).trans rfl

theorem EncodesItsRow.addVxVy (x y : Reg) : EncodesItsRow.Statement (.addVxVy x y) :=
  (packXYN_and_nibble _ _ _ _).trans rfl

theorem EncodesItsRow.subVxVy (x y : Reg) : EncodesItsRow.Statement (.subVxVy x y) :=
  (packXYN_and_nibble _ _ _ _).trans rfl

theorem EncodesItsRow.shrVx (x y : Reg) : EncodesItsRow.Statement (.shrVx x y) :=
  (packXYN_and_nibble _ _ _ _).trans rfl

theorem EncodesItsRow.subnVxVy (x y : Reg) : EncodesItsRow.Statement (.subnVxVy x y) :=
  (packXYN_and_nibble _ _ _ _).trans rfl

theorem EncodesItsRow.shlVx (x y : Reg) : EncodesItsRow.Statement (.shlVx x y) :=
  (packXYN_and_nibble _ _ _ _).trans rfl

theorem EncodesItsRow.sneVxVy (x y : Reg) : EncodesItsRow.Statement (.sneVxVy x y) :=
  (packXYN_and_nibble _ _ _ _).trans rfl

theorem EncodesItsRow.ldI (nnn : Addr12) : EncodesItsRow.Statement (.ldI nnn) :=
  (packNNN_and_family _ _).trans rfl

theorem EncodesItsRow.jpV0 (nnn : Addr12) : EncodesItsRow.Statement (.jpV0 nnn) :=
  (packNNN_and_family _ _).trans rfl

theorem EncodesItsRow.rnd (x : Reg) (kk : Byte) : EncodesItsRow.Statement (.rnd x kk) :=
  (packXKK_and_family _ _ _).trans rfl

theorem EncodesItsRow.drw (x y : Reg) (n : RowCount) : EncodesItsRow.Statement (.drw x y n) :=
  (packXYN_and_family _ _ _ _).trans rfl

theorem EncodesItsRow.skp (x : Reg) : EncodesItsRow.Statement (.skp x) :=
  (packXKK_and_byte _ _ _).trans rfl

theorem EncodesItsRow.sknp (x : Reg) : EncodesItsRow.Statement (.sknp x) :=
  (packXKK_and_byte _ _ _).trans rfl

theorem EncodesItsRow.ldVxDt (x : Reg) : EncodesItsRow.Statement (.ldVxDt x) :=
  (packXKK_and_byte _ _ _).trans rfl

theorem EncodesItsRow.ldVxK (x : Reg) : EncodesItsRow.Statement (.ldVxK x) :=
  (packXKK_and_byte _ _ _).trans rfl

theorem EncodesItsRow.ldDtVx (x : Reg) : EncodesItsRow.Statement (.ldDtVx x) :=
  (packXKK_and_byte _ _ _).trans rfl

theorem EncodesItsRow.ldStVx (x : Reg) : EncodesItsRow.Statement (.ldStVx x) :=
  (packXKK_and_byte _ _ _).trans rfl

theorem EncodesItsRow.addIVx (x : Reg) : EncodesItsRow.Statement (.addIVx x) :=
  (packXKK_and_byte _ _ _).trans rfl

theorem EncodesItsRow.ldFVx (x : Reg) : EncodesItsRow.Statement (.ldFVx x) :=
  (packXKK_and_byte _ _ _).trans rfl

theorem EncodesItsRow.ldBVx (x : Reg) : EncodesItsRow.Statement (.ldBVx x) :=
  (packXKK_and_byte _ _ _).trans rfl

theorem EncodesItsRow.ldMemVx (x : Reg) : EncodesItsRow.Statement (.ldMemVx x) :=
  (packXKK_and_byte _ _ _).trans rfl

theorem EncodesItsRow.ldVxMem (x : Reg) : EncodesItsRow.Statement (.ldVxMem x) :=
  (packXKK_and_byte _ _ _).trans rfl

end Sys2Proof.Laws
end

