-- ==== Sys2Proof/Tests/Slice0.lean ====
section
/-!
SUPPORT. Tests. Every expected value is the spec's: the encodings of spec/30_encoding.md R56, written out bit by bit, and
the vectors of spec/95_test_vectors.md, whose number (D-1, C-1, A-1, M-1, G-1, K-1, T-1, H-1) stands at each test. After
them, one witness for each obligation that has hypotheses.
-/

namespace Sys2Proof.Tests

open Sys2Proof.Machine

/-! ## Helpers -/

/-- The start state of the vectors: construction, a run started, the word `w` at `pc` = 0x200. -/
def ready (w : Word) : State :=
  { State.reset with
    running := true
    timersOn := true
    mem := Memory.writeBytes defaultFont [] 0x200 (bytesOfWord w) }

/-- The bytes `bs` stored at `a` before the test starts. -/
def State.given (s : State) (a : Nat) (bs : List Byte) : State := s.setMem (Memory.writeBytes defaultFont s.mem a bs)

/-- One step from `s` gives a next state that passes `p`. -/
def after (s : State) (p : State → Bool) : Bool :=
  match step s with
  | .next t => p t
  | .fault _ => false
  | .refused _ => false

/-- Two steps from `s` give a next state that passes `p`. -/
def afterTwo (s : State) (p : State → Bool) : Bool := after s fun t => after t p

/-- The next state of an outcome, `s` where there is none. -/
def nextOr (s : State) : Result → State
  | .next t => t
  | .fault _ => s
  | .refused _ => s

/-- The run ended with error `k` at 0x200, the word being `w`, and `pc` stayed there. -/
def raised (k : ErrorKind) (w : Word) (t : State) : Bool :=
  decide (t.endReason = some (.error k 0x200 w) ∧ t.running = false ∧ t.pc = 0x200)

/-! ## WellFormed: the check refuses an ill-formed term -/

theorem test_halt_ill_formed_without_mode : Instr.wellFormed false .halt = false := by decide

theorem test_halt_well_formed_with_mode : Instr.wellFormed true .halt = true := by decide

/-! ## Decoding, word by word from R56 -/

theorem test_decode_family_0 :
    decodeWord false 0b0000000011100000 = some .cls ∧ decodeWord false 0b0000000011101110 = some .ret ∧
    decodeWord true 0b0000000000000000 = some .halt ∧ decodeWord false 0b0000000000000000 = none ∧
    decodeWord true 0b0000000100100011 = none := by decide

theorem test_decode_jumps_and_call :
    decodeWord false 0b0001001000110100 = some (.jp 0x234) ∧ decodeWord false 0b0010001100000000 = some (.call 0x300) ∧
    decodeWord false 0b1011001011110000 = some (.jpV0 0x2F0) := by decide

theorem test_decode_skips :
    decodeWord false 0b0011001101000010 = some (.seVxKk 3 0x42) ∧
    decodeWord false 0b0100001101000010 = some (.sneVxKk 3 0x42) ∧
    decodeWord false 0b0101000100100000 = some (.seVxVy 1 2) ∧ decodeWord false 0b0101000100100001 = none ∧
    decodeWord false 0b1001000100100000 = some (.sneVxVy 1 2) ∧ decodeWord false 0b1001000100101000 = none := by decide

theorem test_decode_immediates :
    decodeWord false 0b0110101000010010 = some (.ldVxKk 10 0x12) ∧
    decodeWord false 0b0111001000000011 = some (.addVxKk 2 0x03) ∧
    decodeWord false 0b1100010000001111 = some (.rnd 4 0x0F) ∧
    decodeWord false 0b1010001100000000 = some (.ldI 0x300) := by decide

theorem test_decode_family_8 :
    decodeWord false 0b1000001000110000 = some (.ldVxVy 2 3) ∧ decodeWord false 0b1000001000110001 = some (.orVxVy 2 3) ∧
    decodeWord false 0b1000001000110010 = some (.andVxVy 2 3) ∧ decodeWord false 0b1000001000110011 = some (.xorVxVy 2 3) ∧
    decodeWord false 0b1000001000110100 = some (.addVxVy 2 3) ∧ decodeWord false 0b1000001000110101 = some (.subVxVy 2 3) ∧
    decodeWord false 0b1000001000110110 = some (.shrVx 2 3) ∧ decodeWord false 0b1000001000110111 = some (.subnVxVy 2 3) ∧
    decodeWord false 0b1000001000111110 = some (.shlVx 2 3) ∧ decodeWord false 0b1000000000001000 = none := by decide

theorem test_decode_draw_and_keys :
    decodeWord false 0b1101000000010011 = some (.drw 0 1 3) ∧ decodeWord false 0b1110000110011110 = some (.skp 1) ∧
    decodeWord false 0b1110000110100001 = some (.sknp 1) ∧ decodeWord false 0b1110000011111111 = none := by decide

theorem test_decode_family_F :
    decodeWord false 0b1111001100000111 = some (.ldVxDt 3) ∧ decodeWord false 0b1111001100001010 = some (.ldVxK 3) ∧
    decodeWord false 0b1111001100010101 = some (.ldDtVx 3) ∧ decodeWord false 0b1111001100011000 = some (.ldStVx 3) ∧
    decodeWord false 0b1111001100011110 = some (.addIVx 3) ∧ decodeWord false 0b1111001100101001 = some (.ldFVx 3) ∧
    decodeWord false 0b1111001100110011 = some (.ldBVx 3) ∧ decodeWord false 0b1111001101010101 = some (.ldMemVx 3) ∧
    decodeWord false 0b1111001101100101 = some (.ldVxMem 3) ∧ decodeWord false 0b1111000011111111 = none := by decide

/-- R42: the high byte stands first; a lone byte is no instruction. -/
theorem test_decode_bytes :
    decode false [0x6A, 0x12, 0x99] = .ok (.ldVxKk 10 0x12, [0x99]) ∧ decode false [0x6A] = .error .truncated ∧
    decode false [0x51, 0x21] = .error (.unrecognized 0x5121) ∧ encodeBytes (.ldVxKk 10 0x12) = [0x6A, 0x12] := by decide

/-- The table's word of HALT is read with HALT_ON_ZERO on (log 28). -/
theorem test_decode_table_word :
    decodeTableWord 16 0x0000 = some .halt ∧ decodeTableWord 16 0xD123 = some (.drw 1 2 3) ∧
    decodeTableWord 16 0x5001 = none := by decide

/-! ## The step -/

/-- D-1 -/
theorem test_step_load_immediate : after (ready 0x6A12) (fun t => t.reg 10 == 0x12 && t.pc == 0x202) = true := by decide

/-- D-2 -/
theorem test_step_unknown_raises : after (ready 0x5121) (raised .unknownInstruction 0x5121) = true := by decide

/-- D-3 -/
theorem test_step_unknown_lenient :
    (let s := ready 0x5121
     after { s with cfg := { s.cfg with lenientUnknown := true } }
      (fun t => t.out == [.log 0x5121 0x200] && t.pc == 0x202 && t.running)) = true := by decide

/-- D-5 -/
theorem test_step_halt :
    (let s := ready 0x0000
     after { s with cfg := { s.cfg with haltOnZero := true } }
      (fun t => t.endReason == some .halted && t.pc == 0x200 && !t.running)) = true := by decide

/-- D-11 -/
theorem test_step_odd_pc :
    after (State.given { ready 0x0000 with pc := 0x201 } 0x201 [0x60, 0x01]) (fun t => t.reg 0 == 1 && t.pc == 0x203)
      = true := by decide

/-- D-12 -/
theorem test_step_last_word :
    afterTwo (State.given { ready 0x0000 with pc := 0xFFE } 0xFFE [0x60, 0x01])
      (fun t => t.reg 0 == 1 && t.pc == 0x1000 && t.endReason == some .pastProgramEnd) = true := by decide

/-- D-13 -/
theorem test_step_straddling_word :
    after { ready 0x0000 with pc := 0xFFF } (fun t => t.pc == 0xFFF && t.endReason == some .pastProgramEnd) = true := by
  decide

/-- The host's placement runs the word as the first instruction after construction (log 28). -/
theorem test_with_fetch_word :
    after (State.reset.withFetchWord 16 0x6A12) (fun t => t.reg 10 == 0x12 && t.pc == 0x202) = true ∧
    after (State.reset.withFetchWord 16 0x0000) (fun t => t.endReason == some .halted) = true := by decide

/-! ## Control flow -/

/-- C-1 -/
theorem test_ret_pops :
    after { ready 0x00EE with stack := [0x206, 0x300] } (fun t => t.pc == 0x206 && t.stack == [0x300]) = true := by decide

/-- C-2 -/
theorem test_ret_empty : after (ready 0x00EE) (raised .stackUnderflow 0x00EE) = true := by decide

/-- C-3 -/
theorem test_jp : after (ready 0x1234) (fun t => t.pc == 0x234) = true := by decide

/-- C-6 -/
theorem test_call_sixteenth :
    after { ready 0x2300 with stack := List.replicate 15 0x202 }
      (fun t => t.pc == 0x300 && t.stack == List.replicate 16 0x202) = true := by decide

/-- C-7 -/
theorem test_call_full :
    after { ready 0x2300 with stack := List.replicate 16 0x202 }
      (fun t => raised .stackOverflow 0x2300 t && t.stack == List.replicate 16 0x202) = true := by decide

/-- C-8, C-9 -/
theorem test_se_byte :
    after ((ready 0x3342).setReg 3 0x42) (fun t => t.pc == 0x204) = true ∧
    after ((ready 0x3342).setReg 3 0x41) (fun t => t.pc == 0x202) = true := by decide

/-- C-10, C-11 -/
theorem test_sne_byte :
    after ((ready 0x4342).setReg 3 0x41) (fun t => t.pc == 0x204) = true ∧
    after ((ready 0x4342).setReg 3 0x42) (fun t => t.pc == 0x202) = true := by decide

/-- C-12 -/
theorem test_se_reg : after (((ready 0x5120).setReg 1 7).setReg 2 7) (fun t => t.pc == 0x204) = true := by decide

/-- C-14, C-15 -/
theorem test_sne_reg :
    after (((ready 0x9120).setReg 1 7).setReg 2 8) (fun t => t.pc == 0x204) = true ∧
    after (ready 0x9550) (fun t => t.pc == 0x202) = true := by decide

/-- C-16 -/
theorem test_jp_v0 : after ((ready 0xB2F0).setReg 0 0x20) (fun t => t.pc == 0x310) = true := by decide

/-- C-17 -/
theorem test_jp_v0_past_the_end :
    afterTwo ((ready 0xBFFF).setReg 0 0xFF) (fun t => t.pc == 0x10FE && t.endReason == some .pastProgramEnd) = true := by
  decide

/-! ## Arithmetic and logic -/

/-- A-3 -/
theorem test_add_byte_wraps :
    after (((ready 0x7203).setReg 2 0xFE).setReg 15 0x55) (fun t => t.reg 2 == 0x01 && t.reg 15 == 0x55) = true := by decide

/-- A-5 -/
theorem test_add_byte_to_vf : after ((ready 0x7F01).setReg 15 0xFF) (fun t => t.reg 15 == 0x00) = true := by decide

/-- A-6 -/
theorem test_copy : after ((ready 0x8010).setReg 1 9) (fun t => t.reg 0 == 9 && t.reg 1 == 9) = true := by decide

/-- A-7 -/
theorem test_or :
    after ((((ready 0x8011).setReg 0 0x0F).setReg 1 0xF0).setReg 15 1) (fun t => t.reg 0 == 0xFF && t.reg 15 == 1) = true := by
  decide

/-- A-8 -/
theorem test_and : after (((ready 0x8012).setReg 0 0x3C).setReg 1 0x0F) (fun t => t.reg 0 == 0x0C) = true := by decide

/-- A-9 -/
theorem test_xor : after (((ready 0x8013).setReg 0 0x3C).setReg 1 0x0F) (fun t => t.reg 0 == 0x33) = true := by decide

/-- A-12 -/
theorem test_add_no_carry :
    after ((((ready 0x8014).setReg 0 0xFE).setReg 1 1).setReg 15 1) (fun t => t.reg 0 == 0xFF && t.reg 15 == 0) = true := by
  decide

/-- A-14 -/
theorem test_add_into_vf : after (((ready 0x8F14).setReg 15 0xFF).setReg 1 1) (fun t => t.reg 15 == 1) = true := by decide

/-- A-16 -/
theorem test_sub_borrow :
    after (((ready 0x8235).setReg 2 5).setReg 3 7) (fun t => t.reg 2 == 0xFE && t.reg 15 == 0) = true := by decide

/-- A-17 -/
theorem test_sub_equal :
    after (((ready 0x8235).setReg 2 7).setReg 3 7) (fun t => t.reg 2 == 0 && t.reg 15 == 1) = true := by decide

/-- A-21 -/
theorem test_shr_ignores_vy :
    after (((ready 0x81A6).setReg 1 4).setReg 10 0xFF) (fun t => t.reg 1 == 2 && t.reg 15 == 0 && t.reg 10 == 0xFF) = true := by
  decide

/-- A-22 -/
theorem test_shr_vf : after ((ready 0x8F06).setReg 15 3) (fun t => t.reg 15 == 0) = true := by decide

/-- A-23 -/
theorem test_subn :
    after (((ready 0x8237).setReg 2 5).setReg 3 7) (fun t => t.reg 2 == 2 && t.reg 15 == 1) = true := by decide

/-- A-24 -/
theorem test_subn_borrow :
    after (((ready 0x8237).setReg 2 7).setReg 3 5) (fun t => t.reg 2 == 0xFE && t.reg 15 == 0) = true := by decide

/-- A-26 -/
theorem test_shl : after ((ready 0x810E).setReg 1 0x81) (fun t => t.reg 1 == 2 && t.reg 15 == 1) = true := by decide

/-- A-28 -/
theorem test_shl_vf : after ((ready 0x8F0E).setReg 15 0x81) (fun t => t.reg 15 == 2) = true := by decide

/-- A-31: a zero mask clears the draw, whatever it is. -/
theorem test_rnd_zero_mask (s : State) :
    (nextOr s (exec (.rnd 4 0) s)).reg 4 = 0 ∧ (nextOr s (exec (.rnd 4 0) s)).pc = s.pc + 2 :=
  ⟨(reg_setReg_self _ 4 _).trans (BitVec.and_zero), rfl⟩

/-! ## Index register and memory -/

/-- M-1 -/
theorem test_ld_i : after (ready 0xA300) (fun t => t.I == 0x300 && t.pc == 0x202) = true := by decide

/-- M-2, M-3 -/
theorem test_add_i :
    after (((ready 0xF01E).setReg 0 1).setIndex 0x0FFF) (fun t => t.I == 0x1000 && t.reg 15 == 0 && t.running) = true ∧
    after (((ready 0xF01E).setReg 0 2).setIndex 0xFFFF) (fun t => t.I == 0x0001) = true := by decide

/-- M-5, M-7 -/
theorem test_ld_f :
    after ((ready 0xF729).setReg 7 0x0A) (fun t => t.I == 0x032) = true ∧
    after ((ready 0xF729).setReg 7 0xFF) (fun t => t.I == 0x4FB) = true := by decide

/-- M-8 -/
theorem test_bcd :
    after (((ready 0xF533).setReg 5 157).setIndex 0x300)
      (fun t => t.byteAt 0x300 == 1 && t.byteAt 0x301 == 5 && t.byteAt 0x302 == 7 && t.I == 0x300) = true := by decide

/-- M-12 -/
theorem test_bcd_out_of_range :
    after (((ready 0xF533).setReg 5 123).setIndex 0xFFE)
      (fun t => raised .memoryOutOfRange 0xF533 t && t.byteAt 0xFFE == 0 && t.byteAt 0xFFF == 0) = true := by decide

/-- M-16 -/
theorem test_store_to_the_top :
    after (((ready 0xFF55).setReg 15 0x77).setIndex 0xFF0) (fun t => t.byteAt 0xFFE == 0 && t.byteAt 0xFFF == 0x77) = true := by
  decide

/-- M-22 -/
theorem test_store_then_fetch :
    afterTwo ((((ready 0xF155).setReg 0 0x60).setReg 1 0x07).setIndex 0x202) (fun t => t.reg 0 == 7) = true := by decide

/-- M-17 -/
theorem test_load :
    after (State.given ((ready 0xF265).setIndex 0x300) 0x300 [1, 5, 7])
      (fun t => t.reg 0 == 1 && t.reg 1 == 5 && t.reg 2 == 7 && t.reg 3 == 0 && t.I == 0x300) = true := by decide

/-- M-20: the construction font's glyph "0". -/
theorem test_load_font :
    after (ready 0xF465)
      (fun t => t.reg 0 == 0xF0 && t.reg 1 == 0x90 && t.reg 2 == 0x90 && t.reg 3 == 0x90 && t.reg 4 == 0xF0) = true := by decide

/-! ## Display -/

/-- G-1 -/
theorem test_cls :
    after ((ready 0x00E0).setDisplay (Vector.replicate 32 0x8000000000000001))
      (fun t => t.disp == Vector.replicate 32 0 && t.dirty) = true := by decide

/-- G-6: the columns wrap. -/
theorem test_draw_wraps_columns :
    after (State.given ((((ready 0xD011).setReg 0 60).setReg 1 31).setIndex 0x300) 0x300 [0xFF])
      (fun t => t.pix 60 31 && t.pix 63 31 && t.pix 0 31 && t.pix 3 31 && !t.pix 4 31 && !t.pix 59 31 && t.reg 15 == 0)
      = true := by decide

/-- G-5: a collision, and a pixel the sprite leaves alone. -/
theorem test_draw_collides :
    after (State.given (((ready 0xD011).setDisplay ((Vector.replicate 32 0).set 0 0x3)).setIndex 0x300) 0x300 [0x81])
      (fun t => !t.pix 0 0 && t.pix 1 0 && t.pix 7 0 && t.reg 15 == 1 && t.dirty) = true := by decide

/-! ## Keys and timers -/

/-- K-1, K-3 -/
theorem test_skp :
    after (((ready 0xE19E).setReg 1 5).setKeys 0x0020) (fun t => t.pc == 0x204) = true ∧
    after (((ready 0xE19E).setReg 1 0x15).setKeys 0xFFFF) (fun t => t.pc == 0x202) = true := by decide

/-- K-5, K-6 -/
theorem test_sknp :
    after (((ready 0xE1A1).setReg 1 5).setKeys 0x0020) (fun t => t.pc == 0x202) = true ∧
    after (((ready 0xE1A1).setReg 1 0x10).setKeys 0xFFFF) (fun t => t.pc == 0x204) = true := by decide

/-- K-7 -/
theorem test_ld_vx_dt : after ((ready 0xF307).setDelay 0x3C) (fun t => t.reg 3 == 0x3C && t.pc == 0x202) = true := by decide

/-- K-8 -/
theorem test_key_wait :
    after ((ready 0xF30A).setKeys 0xFFFF) (fun t => t.wait == some 3 && t.pc == 0x200 && t.reg 3 == 0) = true := by decide

/-- K-9 -/
theorem test_ld_dt_vx : after ((ready 0xF315).setReg 3 0x0A) (fun t => t.DT == 10 && t.pc == 0x202) = true := by decide

/-- K-10 -/
theorem test_ld_st_vx : after ((ready 0xF318).setReg 3 2) (fun t => t.ST == 2 && t.pc == 0x202) = true := by decide

/-! ## Ticks and host operations, taken as turns -/

/-- T-2 -/
theorem test_tick_beeps :
    (let s := ready 0x1200
     after { s with ST := 1, cfg := { s.cfg with beepHook := true }, moves := [.tick] }
      (fun t => t.ST == 0 && t.DT == 0 && t.out == [.beep] && t.pc == 0x200)) = true := by decide

/-- H-3 -/
theorem test_keydown_resolves_the_wait :
    after { ready 0xF30A with wait := some 3, moves := [.host (.keydown 0)] }
      (fun t => t.reg 3 == 0 && t.pc == 0x202 && t.wait == none && t.keys == 0x0001) = true := by decide

/-- H-1 -/
theorem test_keyup_leaves_the_wait :
    after { ready 0xF30A with wait := some 3, moves := [.host (.keyup 5)] }
      (fun t => t.wait == some 3 && t.pc == 0x200 && t.keys == 0) = true := by decide

/-- H-5 -/
theorem test_stop_cancels_the_wait :
    after { ready 0xF30A with wait := some 3, moves := [.host .stop] }
      (fun t => !t.running && !t.timersOn && t.wait == none && t.endReason == some .stopRequested && t.pc == 0x200) = true := by
  decide

/-- H-7 -/
theorem test_host_reset :
    after { (ready 0x1200).setReg 3 9 with pc := 0x202, stack := [0x300], moves := [.host .reset] }
      (fun t => t.pc == 0x200 && t.stack == [0x300] && t.reg 3 == 9 && t.running) = true := by decide

/-- E7: the host loads and runs, and register 0 reads 5. -/
theorem test_load_run_step :
    (match takeTurns [.host (.load [0x60, 0x05, 0x00, 0x00]), .host .run, .instruction] State.reset with
      | .next t => t.reg 0 == 5 && t.pc == 0x202
      | .fault _ => false
      | .refused _ => false) = true := by decide

/-- H-9, with PROG_END = 0x203: three bytes fit and four do not. -/
theorem test_load_too_large :
    (let s := ready 0x1200
     after { s with cfg := { s.cfg with progEnd := 0x203 }, moves := [.host (.load [1, 2, 3])] }
      (fun t => t.reply == some .done && t.byteAt 0x202 == 3) &&
     after { s with cfg := { s.cfg with progEnd := 0x203 }, moves := [.host (.load [1, 2, 3, 4])] }
      (fun t => t.reply == some .loadTooLarge && t.byteAt 0x202 == 0)) = true := by decide

/-- H-13 -/
theorem test_query_gfx_clears_dirty :
    after { ready 0x1200 with dirty := true, moves := [.host (.query .gfx)] } (fun t => !t.dirty) = true := by decide

/-! ## Witnesses: for each obligation with hypotheses, concrete states and operands that meet all of them -/

/-- `ready w` with `pc` = 0xFFE, the last place an instruction of the default program region stands, and the word `w` there. -/
def readyAtTheEnd (w : Word) : State := State.given { ready 0x0000 with pc := 0xFFE } 0xFFE (bytesOfWord w)

theorem witness_EncodedInstructionsDecodeBack :
    Instr.wellFormed true .halt = true ∧ Instr.wellFormed false (.drw 15 15 15) = true := by decide

theorem witness_DecodedWordsEncodeBack :
    decodeWord true 0x0000 = some .halt ∧ decodeWord false 0xDFFF = some (.drw 15 15 15) := by decide

theorem witness_OpcodeMapDecidesEveryWord :
    decodeWord false 0xDFFF = some (.drw 15 15 15) ∧
    Instr.wellFormed false (.drw 0 0 0) = true ∧ (0xDFFF : Word) &&& (Instr.drw 0 0 0).row.mask = (Instr.drw 0 0 0).row.pattern := by
  decide

/-- At the last instruction's place, with no turn pending and with one. -/
theorem witness_StepRunsTheDecodedInstruction :
    (let s := readyAtTheEnd 0x6001
     s.running = true ∧ s.wait = none ∧ s.pc.toNat + 2 = s.cfg.progEnd ∧ s.cfg.progEnd ≤ 4096 ∧
      decodeWord s.cfg.haltOnZero (wordOfBytes (s.byteAt s.pc.toNat) (s.byteAt (s.pc.toNat + 1))) = some (.ldVxKk 0 1) ∧
      s.moves = []) ∧
    (let s := { readyAtTheEnd 0x6001 with moves := [.instruction, .tick] }
     s.running = true ∧ s.wait = none ∧ s.pc.toNat + 2 = s.cfg.progEnd ∧ s.cfg.progEnd ≤ 4096 ∧
      decodeWord s.cfg.haltOnZero (wordOfBytes (s.byteAt s.pc.toNat) (s.byteAt (s.pc.toNat + 1))) = some (.ldVxKk 0 1) ∧
      s.moves = .instruction :: [.tick]) := by decide

theorem witness_TurnsAreTakenInOrder :
    State.reset.moves = [] ∧ { State.reset with moves := [.tick] }.moves = .tick :: [] := by decide

theorem witness_PastTheEndTheRunEndsCleanly :
    (let s := { ready 0x0000 with pc := 0xFFF }
     s.running = true ∧ s.wait = none ∧ s.cfg.progEnd + 1 = s.pc.toNat + 2) := by decide

theorem witness_UnrecognizedWordsRaiseOrAreLogged :
    (let s := readyAtTheEnd 0x5121
     s.running = true ∧ s.wait = none ∧ s.pc.toNat + 2 = s.cfg.progEnd ∧ s.cfg.progEnd ≤ 4096 ∧
      (0x5121 : Word) = wordOfBytes (s.byteAt s.pc.toNat) (s.byteAt (s.pc.toNat + 1)) ∧
      decodeWord s.cfg.haltOnZero 0x5121 = none ∧ s.cfg.lenientUnknown = false) ∧
    (let r := readyAtTheEnd 0x5121
     let s := { r with cfg := { r.cfg with lenientUnknown := true } }
     s.running = true ∧ s.wait = none ∧ s.pc.toNat + 2 = s.cfg.progEnd ∧ s.cfg.progEnd ≤ 4096 ∧
      (0x5121 : Word) = wordOfBytes (s.byteAt s.pc.toNat) (s.byteAt (s.pc.toNat + 1)) ∧
      decodeWord s.cfg.haltOnZero 0x5121 = none ∧ s.cfg.lenientUnknown = true) := by decide

theorem witness_DisabledAgentsChangeNothing :
    State.reset.running = false ∧ { ready 0xF30A with wait := some 3 }.wait = some 3 ∧ State.reset.timersOn = false := by decide

theorem witness_RunEndingInstructionsChangeNothingElse :
    ∃ t, exec .ret (ready 0x00EE) = .next t ∧ (ready 0x00EE).running = true ∧ t.running = false := ⟨_, rfl, rfl, rfl⟩

theorem witness_StepsKeepConfigurationAndGrowOutput : ∃ t, step { State.reset with moves := [.tick] } = .next t := ⟨_, rfl⟩

/-- A key wait at the last instruction of the program region with a full stack, and a key press to come: every clause of
the invariant has something to say. -/
def waiting : State :=
  { readyAtTheEnd 0xF30A with wait := some 3, stack := List.replicate 16 0x1000, moves := [.host (.keydown 15)] }

theorem waiting_inv : Inv waiting where
  cfg := by decide
  mem := by decide
  stackLength := by decide
  stackEntries := fun v hv => by rw [List.eq_of_mem_replicate (hv : v ∈ List.replicate 16 (0x1000 : Word))]; decide
  pc := by decide
  waitRunning := by decide
  waitPc := by decide
  noReason := fun _ => rfl
  timers := fun _ => rfl

/-- The query of all of memory, in bounds, to come. -/
def asked : State := { ready 0x6001 with moves := [.host (.query (.memory 0 4096))] }

theorem asked_inv : Inv asked where
  cfg := by decide
  mem := by decide
  stackLength := by decide
  stackEntries := fun v hv => absurd (hv : v ∈ ([] : List Word)) List.not_mem_nil
  pc := by decide
  waitRunning := by decide
  waitPc := by decide
  noReason := fun _ => rfl
  timers := fun _ => rfl

/-- A key code out of bounds to come. -/
def askedTooMuch : State := { ready 0x6001 with moves := [.host (.keydown 16)] }

theorem askedTooMuch_inv : Inv askedTooMuch where
  cfg := by decide
  mem := by decide
  stackLength := by decide
  stackEntries := fun v hv => absurd (hv : v ∈ ([] : List Word)) List.not_mem_nil
  pc := by decide
  waitRunning := by decide
  waitPc := by decide
  noReason := fun _ => rfl
  timers := fun _ => rfl

theorem witness_EveryStepKeepsTheInvariant : Inv waiting ∧ ∃ t, step waiting = .next t := ⟨waiting_inv, _, rfl⟩

theorem witness_NoStepFaultsUnderTheInvariant :
    (Inv asked ∧ asked.takeTurn.1.inBounds = true) ∧ (Inv askedTooMuch ∧ askedTooMuch.takeTurn.1.inBounds = false) :=
  ⟨⟨asked_inv, by decide⟩, ⟨askedTooMuch_inv, by decide⟩⟩

theorem witness_ReturnPopsTheReturnAddress :
    { State.reset with stack := [0x206] }.stack = 0x206 :: [] ∧ State.reset.stack = [] ∧
    { State.reset with stack := List.replicate 15 0x202 }.stack.length < 16 := by decide

theorem witness_CallPushesTheReturnAddress :
    (let s := { State.reset with pc := 0xFFE, stack := List.replicate 15 0x202 }
     s.stack.length < 16 ∧ s.cfg.wf ∧ s.pc.toNat + 2 ≤ s.cfg.progEnd) ∧
    { State.reset with stack := List.replicate 16 0x202 }.stack.length = 16 := by decide

/-- All 16 entries of the stack. -/
theorem witness_NestedCallsThenReturnsComeBack :
    List.replicate 16 (0x300 : Addr12) ≠ [] ∧ State.reset.stack.length + (List.replicate 16 (0x300 : Addr12)).length = 16 := by
  decide

/-- The least target past the end of the default program region. -/
theorem witness_IndexedJumpAddsV0 :
    (let s := ready 0xBFFF
     s.running = true ∧ s.wait = none ∧ s.cfg.progEnd + 1 = (0xFFF : Addr12).toNat + (s.reg 0).toNat + 2) := by decide

theorem witness_AddSetsTheCarry : (14 : Reg) ≠ 15 := by decide

theorem witness_SubtractionsSetNoBorrow : (14 : Reg) ≠ 15 := by decide

theorem witness_ShiftsMoveByOneBit : (14 : Reg) ≠ 15 ∧ (15 : Reg) = 15 := by decide

/-- The last place three bytes fit, and the first where they do not. -/
theorem witness_BcdStoresThreeDigits :
    (0xFFD = dataAddress (State.reset.setIndex 0xFFD) ∧ 0xFFD + 3 ≤ 4096) ∧
    4096 < dataAddress (State.reset.setIndex 0xFFE) + 3 := by decide

theorem witness_StoreWritesRegistersInOrder :
    (0xFF0 = dataAddress (State.reset.setIndex 0xFF0) ∧ 0xFF0 + (15 : Reg).val + 1 ≤ 4096) ∧
    4096 < dataAddress (State.reset.setIndex 0xFF1) + (15 : Reg).val + 1 := by decide

theorem witness_LoadReadsRegistersInOrder :
    dataAddress (State.reset.setIndex 0xFFF) + (0 : Reg).val + 1 ≤ 4096 ∧
    4096 < dataAddress (State.reset.setIndex 0xFFF) + (1 : Reg).val + 1 := by decide

theorem witness_LoadAfterStoreRestoresRegisters :
    (let s := (State.reset.setReg 15 0x77).setIndex 0xFF0
     dataAddress s + (15 : Reg).val + 1 ≤ 4096 ∧
      ∃ t, exec (.ldMemVx 15) s = .next t ∧ (t.setReg 15 0).mem = t.mem ∧ (t.setReg 15 0).cfg = t.cfg ∧ (t.setReg 15 0).I = t.I) :=
  ⟨by decide, _, rfl, rfl, rfl, rfl⟩

/-- `load` of an image that fits is done, whatever its bytes are. -/
theorem load_answers (s : State) (bytes : List Byte) (h : bytes.length ≤ s.cfg.progEnd - 0x200) (hs : 0x200 + bytes.length ≤ 4096) :
    ∃ t, hostOp (.load bytes) s = .next (t, .done) := by
  rcases memWrite_cases 0x200 bytes s with ⟨_, hm⟩ | ⟨hn, _⟩
  · exact ⟨_, by rw [hostOp, hostLoad, if_neg (Nat.not_lt.mpr h), hm]⟩
  · exact absurd (.inr hs) hn

/-- The last pair of bytes a store of all registers writes, both pairs of a store of digits at the end of memory, and the
last pair of an image of three bytes. -/
theorem witness_FetchSeesTheStore :
    (let s := State.reset.setIndex 0xFF0
     (14 + 1 ≤ (15 : Reg).val) ∧ dataAddress s + (15 : Reg).val + 1 ≤ 4096 ∧ (∃ t, exec (.ldMemVx 15) s = .next t) ∧
      (0xFFE : Word).toNat = dataAddress s + 14) ∧
    (let s := State.reset.setIndex 0xFFD
     dataAddress s + 3 ≤ 4096 ∧ (∃ t, exec (.ldBVx 15) s = .next t) ∧ (0xFFD : Word).toNat = dataAddress s ∧
      (0xFFE : Word).toNat = dataAddress s + 1) ∧
    ((∃ t, hostOp (.load [1, 2, 3]) State.reset = .next (t, .done)) ∧ 1 + 1 < [(1 : Byte), 2, 3].length ∧
      (0x201 : Word).toNat = 0x200 + 1) :=
  ⟨⟨by decide, by decide, ⟨_, rfl⟩, by decide⟩, ⟨by decide, ⟨_, rfl⟩, by decide, by decide⟩,
    load_answers _ _ (by decide) (by decide), by decide, by decide⟩

/-- A sprite at the very end of memory, and no sprite at an address outside it. -/
theorem witness_DrawXorsTheSpriteOntoTheDisplay :
    (let s := State.given (State.reset.setIndex 0xFFF) 0xFFF [0x80]
     ((1 : RowCount).val = 0 ∨ dataAddress s + (1 : RowCount).val ≤ 4096) ∧ [(0x80 : Byte)].length = (1 : RowCount).val ∧
      ∀ r, r < (1 : RowCount).val → [(0x80 : Byte)].getD r 0 = s.byteAt (dataAddress s + r)) ∧
    (let s := State.reset.setIndex 0xFFFF
     ((0 : RowCount).val = 0 ∨ dataAddress s + (0 : RowCount).val ≤ 4096) ∧ ([] : List Byte).length = (0 : RowCount).val ∧
      ∀ r, r < (0 : RowCount).val → ([] : List Byte).getD r 0 = s.byteAt (dataAddress s + r)) := by decide

theorem witness_DrawOutsideMemoryRaises :
    (2 : RowCount).val ≠ 0 ∧ 4096 < dataAddress (State.reset.setIndex 0xFFF) + (2 : RowCount).val := by decide

theorem witness_DrawingTwiceRestoresTheDisplay :
    ∃ t u, (0 : Reg) ≠ 15 ∧ (1 : Reg) ≠ 15 ∧ dataAddress State.reset + (5 : RowCount).val ≤ 4096 ∧
      exec (.drw 0 1 5) State.reset = .next t ∧ exec (.drw 0 1 5) t = .next u :=
  ⟨_, _, by decide, by decide, by decide, rfl, rfl⟩

theorem witness_FullRowDrawnTwiceCollides :
    (let s := State.given (((State.reset.setReg 0 60).setReg 1 31).setIndex 0x300) 0x300 [0xFF]
     (0 : Reg) ≠ 15 ∧ (1 : Reg) ≠ 15 ∧ dataAddress s + 1 ≤ 4096 ∧ s.byteAt (dataAddress s) = 0xFF ∧
      (∀ w, w < 8 → s.pix (((s.reg 0).toNat + w) % 64) ((s.reg 1).toNat % 32) = false) ∧
      ∃ t u, exec (.drw 0 1 1) s = .next t ∧ exec (.drw 0 1 1) t = .next u) :=
  ⟨by decide, by decide, by decide, by decide, by decide, _, _, rfl, rfl⟩

theorem witness_KeydownSetsTheBitAndResolvesTheWait :
    State.reset.wait = none ∧ { ready 0xF30A with wait := some 3 }.wait = some 3 := by decide

theorem witness_KeyWaitBlocksUntilAKeyPress :
    (let s := { ready 0xF30A with wait := some 3 }
     s.cfg.wf ∧ s.running = true ∧ s.wait = some 3 ∧
      ∀ m ∈ [Move.tick, .host (.keyup 5), .instruction, .host .run],
        m.inBounds = true ∧ m ≠ .host .stop ∧ m ≠ .host .reset ∧ ∀ k, m ≠ .host (.keydown k)) := by
  refine ⟨by decide, by decide, by decide, fun m hm => ?_⟩
  simp only [List.mem_cons, List.not_mem_nil, or_false] at hm
  rcases hm with rfl | rfl | rfl | rfl <;> exact ⟨rfl, by decide, by decide, fun k h => by cases h⟩

theorem witness_TickCountsBothTimersDown : (ready 0x1200).timersOn = true := by decide

/-- After one tick the one timer stands at 0 and the other is still counting. -/
theorem witness_TicksDecreaseTimersToZero :
    (let s := { ready 0x1200 with DT := 1, ST := 2 }
     s.timersOn = true ∧ s.DT.toNat - 1 = 0 ∧ 0 < s.ST.toNat - 1) := by decide

theorem witness_BeepFiresOncePerCountdown : { ready 0x1200 with ST := 1 }.timersOn = true := by decide

theorem witness_RunStartsBothSchedulers : State.reset.running = false ∧ (ready 0x1200).running = true := by decide

theorem witness_StopEndsTheRun : (ready 0x1200).running = true ∧ State.reset.running = false := by decide

/-- The largest image that fits the default program region, and one byte more. -/
theorem witness_LoadCopiesTheImageOrIsTooLarge :
    State.reset.cfg.wf ∧ (List.replicate 0xE00 (0 : Byte)).length ≤ State.reset.cfg.progEnd - 0x200 ∧
    State.reset.cfg.progEnd - 0x200 < (List.replicate 0xE01 (0 : Byte)).length := by
  rw [List.length_replicate, List.length_replicate]
  decide

theorem witness_QueriesAnswerAndChangeNothing : 0 + 4096 ≤ 4096 ∧ 4095 + 1 ≤ 4096 ∧ 16 ≤ 16 ∧ 4096 < 4095 + 2 := by decide

theorem witness_KeyCodesOutOfRangeAreRefused : 16 ≤ 16 := by decide

theorem witness_HostTurnRunsTheOperation : ∃ t, hostOp (.keydown 15) State.reset = .next (t, .done) := ⟨_, rfl⟩

end Sys2Proof.Tests
end

section
/-!
PROOFS. Register arithmetic and logic (spec/42_alu.md): the instructions that write one register and no flag.
-/

namespace Sys2Proof.Machine

/-! ## The shared meaning `writeAndAdvance` -/

/-- All that `V[x] <- v; pc <- pc + 2` does, for every `x`, VF included. -/
theorem writeAndAdvance_effect (x : Reg) (v : Byte) (s : State) :
    ∃ t, writeAndAdvance x v s = .next t ∧ t.reg x = v ∧ t.pc = s.pc + 2 ∧ Frame [.reg x] s t :=
  ⟨(s.setReg x v).advance, rfl, reg_setReg_self s x v, rfl, (frame_setReg s x v).advance⟩

/-! ## The instructions that are one `writeAndAdvance` -/

section
variable (x y : Reg) (kk : Byte) (s : State)

theorem exec_ldVxKk : exec (.ldVxKk x kk) s = writeAndAdvance x kk s := rfl

theorem exec_addVxKk : exec (.addVxKk x kk) s = writeAndAdvance x (s.reg x + kk) s := rfl

theorem exec_ldVxVy : exec (.ldVxVy x y) s = writeAndAdvance x (s.reg y) s := rfl

theorem exec_orVxVy : exec (.orVxVy x y) s = writeAndAdvance x (s.reg x ||| s.reg y) s := rfl

theorem exec_andVxVy : exec (.andVxVy x y) s = writeAndAdvance x (s.reg x &&& s.reg y) s := rfl

theorem exec_xorVxVy : exec (.xorVxVy x y) s = writeAndAdvance x (s.reg x ^^^ s.reg y) s := rfl

end

/-! ## The obligations -/

/-- Settles O25: each of the five is one `writeAndAdvance`. -/
theorem loadsAndBitwiseWriteOnlyVx : Obligations.LoadsAndBitwiseWriteOnlyVx := by
  intro s x y kk
  rw [exec_ldVxKk, exec_ldVxVy, exec_orVxVy, exec_andVxVy, exec_xorVxVy]
  exact ⟨writeAndAdvance_effect .., writeAndAdvance_effect .., writeAndAdvance_effect .., writeAndAdvance_effect ..,
    writeAndAdvance_effect ..⟩

/-- Settles O26: ADD immediate is one `writeAndAdvance` of the byte sum, which wraps at 256. -/
theorem addImmediateWrapsWithoutCarry : Obligations.AddImmediateWrapsWithoutCarry := by
  intro s x kk
  obtain ⟨t, hexec, hreg, hpc, hframe⟩ := writeAndAdvance_effect x (s.reg x + kk) s
  have hsum : (t.reg x).toNat = ((s.reg x).toNat + kk.toNat) % 256 := by rw [hreg, BitVec.toNat_add]
  exact ⟨t, (exec_addVxKk x kk s).trans hexec, hsum, hpc, hframe⟩

end Sys2Proof.Machine
end

section
/-!
PROOFS. The index register (spec/43_index_memory.md): the instructions that write `I` and nothing else.
-/

namespace Sys2Proof.Machine

/-! ## The two addresses as numbers -/

theorem zext16_toNat (nnn : Addr12) : (zext16 nnn).toNat = nnn.toNat :=
  BitVec.toNat_setWidth_of_le (by decide)

/-- No wrap in the multiplication: 255 * 5 fits 16 bits. -/
theorem glyphAddress_toNat (v : Byte) : (glyphAddress v).toNat = v.toNat * 5 := by
  have hv := v.isLt
  rw [glyphAddress, BitVec.toNat_mul, BitVec.toNat_setWidth]
  change v.toNat % 65536 * 5 % 65536 = v.toNat * 5
  omega

/-! ## The shared meaning: `I <- v; pc <- pc + 2` -/

section
variable {i : Instr} {s : State} {v : Word} {n : Nat}

/-- All that an instruction does whose meaning is `I <- v; pc <- pc + 2`, with `v` given as a number. -/
theorem exec_effect_of_setIndex (hexec : exec i s = .next (s.setIndex v).advance) (hv : v.toNat = n) :
    ∃ t, exec i s = .next t ∧ t.I.toNat = n ∧ t.pc = s.pc + 2 ∧ Frame [.index] s t :=
  ⟨(s.setIndex v).advance, hexec, hv, rfl, (frame_setIndex s v).advance⟩

end

theorem exec_ldI (nnn : Addr12) (s : State) : exec (.ldI nnn) s = .next (s.setIndex (zext16 nnn)).advance := rfl

theorem exec_ldFVx (x : Reg) (s : State) : exec (.ldFVx x) s = .next (s.setIndex (glyphAddress (s.reg x))).advance := rfl

/-! ## The obligations -/

/-- Settles O31: both set `I` and advance; the zero extension keeps the address, and five times a byte does not wrap. -/
theorem indexLoadsSetI : Obligations.IndexLoadsSetI := by
  intro s x nnn
  exact ⟨exec_effect_of_setIndex (exec_ldI nnn s) (zext16_toNat nnn),
    exec_effect_of_setIndex (exec_ldFVx x s) (glyphAddress_toNat (s.reg x))⟩

end Sys2Proof.Machine
end

section
/-!
PROOFS. The display (spec/44_display.md): the instruction that clears it.
-/

namespace Sys2Proof.Machine

section
variable (s : State)

/-- Advancing `pc` leaves the display. -/
@[simp] theorem pix_advance (col row : Nat) : s.advance.pix col row = s.pix col row := rfl

theorem exec_cls : exec .cls s = .next (s.setDisplay (Vector.replicate 32 0)).advance := rfl

end

/-! ## The obligation -/

/-- Settles O38: CLS writes the display of zero rows and advances; a display write is what sets the dirty flag, and VF is
outside its frame. -/
theorem clearDisplayIsTotal : Obligations.ClearDisplayIsTotal := by
  intro s
  refine ⟨(s.setDisplay (Vector.replicate 32 0)).advance, exec_cls s, ?pixels, ?dirty, ?pc, ?frame⟩
  case pixels =>
    intro col row _ _
    rw [pix_advance, pix_clear]
  case dirty => rw [advance_dirty, setDisplay_dirty]
  case pc => rfl
  case frame => exact (frame_setDisplay s _).advance

end Sys2Proof.Machine
end

section
/-!
PROOFS. Keys and timers (spec/45_keys_timers.md): the moves between a register and the delay timer.
-/

namespace Sys2Proof.Machine

section
variable (x : Reg) (s : State)

theorem exec_ldVxDt : exec (.ldVxDt x) s = writeAndAdvance x s.DT s := rfl

theorem exec_ldDtVx : exec (.ldDtVx x) s = .next (s.setDelay (s.reg x)).advance := rfl

end

/-! ## The obligation -/

/-- Settles O44: the read is one `writeAndAdvance` of the delay timer; the write stores V[x] in the timer and advances. -/
theorem delayTimerMoves : Obligations.DelayTimerMoves := by
  intro s x
  refine ⟨?read, (s.setDelay (s.reg x)).advance, exec_ldDtVx x s, ?timer, ?pc, ?frame⟩
  case read =>
    rw [exec_ldVxDt]
    exact writeAndAdvance_effect x s.DT s
  case timer => rw [advance_DT, setDelay_DT]
  case pc => rw [advance_pc, setDelay_pc]
  case frame => exact (frame_setDelay s (s.reg x)).advance

end Sys2Proof.Machine
end

section
/-!
PROOFS. The timer agent and the release of a key (spec/60_exceptions.md R121, R123, R128).
-/

namespace Sys2Proof.Machine

/-! ## One tick (R121) -/

section
variable (s : State)

/-- Both counters after a tick, whether it beeps or not. -/
theorem timerTick_counters :
    (timerTick s).DT = countDown s.DT ∧ (timerTick s).ST = countDown s.ST := by
  obtain ⟨-, -, htick⟩ | ⟨-, htick⟩ := timerTick_cases s <;> rw [htick] <;> exact ⟨rfl, rfl⟩

@[simp] theorem timerTick_DT_toNat : (timerTick s).DT.toNat = s.DT.toNat - 1 := by
  rw [(timerTick_counters s).1, countDown_toNat]

@[simp] theorem timerTick_ST_toNat : (timerTick s).ST.toNat = s.ST.toNat - 1 := by
  rw [(timerTick_counters s).2, countDown_toNat]

/-- A tick does not switch the timer scheduler off. -/
@[simp] theorem timerTick_timersOn : (timerTick s).timersOn = s.timersOn := by
  obtain ⟨-, -, htick⟩ | ⟨-, htick⟩ := timerTick_cases s <;> rw [htick] <;> rfl

end

/-! ## Ticks in a row -/

section
variable {s t : State}

theorem agentStep_tick_of_timersOn (hon : s.timersOn = true) : agentStep .tick s = .next (timerTick s) := by
  rw [agentStep, timerStep, if_pos hon]

theorem takeTurns_cons_of_next {m : Move} (rest : List Move) (h : agentStep m s = .next t) :
    takeTurns (m :: rest) s = takeTurns rest t := by
  rw [takeTurns, h]

/-- With the timer scheduler on, `k` tick turns succeed, leave it on and take `k` off both counters, clamped at zero. -/
theorem takeTurns_ticks_counters (k : Nat) (hon : s.timersOn = true) :
    ∃ t, takeTurns (List.replicate k .tick) s = .next t ∧ t.timersOn = true ∧
      t.DT.toNat = s.DT.toNat - k ∧ t.ST.toNat = s.ST.toNat - k := by
  induction k generalizing s with
  | zero => exact ⟨s, rfl, hon, rfl, rfl⟩
  | succ k ih =>
    obtain ⟨t, hturns, hton, hDT, hST⟩ := ih (s := timerTick s) ((timerTick_timersOn s).trans hon)
    rw [timerTick_DT_toNat] at hDT
    rw [timerTick_ST_toNat] at hST
    refine ⟨t, ?_, hton, by omega, by omega⟩
    rw [List.replicate_succ, takeTurns_cons_of_next _ (agentStep_tick_of_timersOn hon), hturns]

end

/-! ## The release of a key (R128) -/

theorem hostOp_keyup (k : Key) (s : State) : hostOp (.keyup k.val) s = .next (s.releaseKey k, .done) :=
  dif_pos k.isLt

/-! ## The obligations -/

/-- Settles O51: `k` ticks take `k` off both counters (induction on `k`), and the next tick takes one more off,
which is strictly down from a nonzero counter and nothing at 0. -/
theorem ticksDecreaseTimersToZero : Obligations.TicksDecreaseTimersToZero := by
  intro s k hon
  obtain ⟨t, hturns, hton, hDT, hST⟩ := takeTurns_ticks_counters k hon
  have hDT' := timerTick_DT_toNat t
  have hST' := timerTick_ST_toNat t
  exact ⟨t, timerTick t, hturns, agentStep_tick_of_timersOn hton, hDT, hST,
    by omega, by omega, by omega, by omega⟩

/-- Settles O48: a key up is one write of the key bitmap, outside whose frame the wait lies. -/
theorem keyupClearsTheBitOnly : Obligations.KeyupClearsTheBitOnly := by
  intro s k
  exact ⟨s.releaseKey k, hostOp_keyup k s, releaseKey_bit s k, rfl, frame_setKeys s _⟩

end Sys2Proof.Machine
end

section
/-!
PROOFS. Decoding and encoding (spec/30_encoding.md): the decoder on packed words, words packed again from their fields,
the opcode map, and the words that decode to nothing.
-/

namespace Sys2Proof

/-! ## The decoder on a packed word -/

theorem decodeWord_encode (haltOnZero : Bool) (i : Instr) (hi : i.wellFormed haltOnZero = true) :
    decodeWord haltOnZero (encode i) = some i := by
  cases i with
  | halt =>
    rw [show haltOnZero = true from hi]
    rfl
  | cls | ret => rfl
  | _ => simp [encode, decodeWord, decodeFamily8, decodeFamilyE, decodeFamilyF]

/-- A byte sequence that starts with the two bytes of a word that decodes. -/
theorem decode_bytesOfWord {haltOnZero : Bool} {w : Word} {i : Instr} (h : decodeWord haltOnZero w = some i)
    (rest : List Byte) : decode haltOnZero (bytesOfWord w ++ rest) = .ok (i, rest) := by
  simp only [bytesOfWord, List.cons_append, List.nil_append, decode, wordOfBytes_bytesOfWord, h]

/-! ## A word is packed from its fields, those that select it being known -/

section
variable {w : Word} {f n : BitVec 4} {kk : Byte}

theorem packNNN_of_fieldF (hf : fieldF w = f) : packNNN f (fieldNNN w) = w := by
  rw [← hf, packNNN_fields]

theorem packXKK_of_fieldF (hf : fieldF w = f) : packXKK f (fieldX w) (fieldKK w) = w := by
  rw [← hf, packXKK_fields]

theorem packXKK_of_fieldKK (hf : fieldF w = f) (hkk : fieldKK w = kk) : packXKK f (fieldX w) kk = w := by
  rw [← hkk, packXKK_of_fieldF hf]

theorem packXYN_of_fieldSub (hf : fieldF w = f) (hn : fieldSub w = n) :
    packXYN f (fieldX w) (fieldY w) n = w := by
  rw [← hf, ← hn, packXYN_fields]

/-- The row count of `Dxyn` is the field of the sub-selector. -/
theorem ofFin_fieldN (w : Word) : BitVec.ofFin (fieldN w) = fieldSub w := rfl

end

/-! ## A word that decodes (R55, R56) -/

section
variable {haltOnZero : Bool} {w : Word} {i : Instr}

theorem encode_of_decodeFamily0 (h : decodeFamily0 haltOnZero w = some i) :
    encode i = w ∧ i.wellFormed haltOnZero = true := by
  unfold decodeFamily0 at h
  split at h
  · cases h; exact ⟨rfl, rfl⟩
  · cases h; exact ⟨rfl, rfl⟩
  · split at h
    · next hmode => cases h; exact ⟨rfl, hmode⟩
    · cases h
  · cases h

theorem encode_of_decodeFamily8 (hf : fieldF w = 0x8) (h : decodeFamily8 w = some i) :
    encode i = w ∧ i.wellFormed haltOnZero = true := by
  unfold decodeFamily8 at h
  split at h <;> cases h
  all_goals next hn => exact ⟨packXYN_of_fieldSub hf hn, rfl⟩

theorem encode_of_decodeFamilyE (hf : fieldF w = 0xE) (h : decodeFamilyE w = some i) :
    encode i = w ∧ i.wellFormed haltOnZero = true := by
  unfold decodeFamilyE at h
  split at h <;> cases h
  all_goals next hkk => exact ⟨packXKK_of_fieldKK hf hkk, rfl⟩

theorem encode_of_decodeFamilyF (hf : fieldF w = 0xF) (h : decodeFamilyF w = some i) :
    encode i = w ∧ i.wellFormed haltOnZero = true := by
  unfold decodeFamilyF at h
  split at h <;> cases h
  all_goals next hkk => exact ⟨packXKK_of_fieldKK hf hkk, rfl⟩

/-- The word and the existence of the instruction a word decodes to, family by family. -/
theorem encode_of_decodeWord (h : decodeWord haltOnZero w = some i) :
    encode i = w ∧ i.wellFormed haltOnZero = true := by
  unfold decodeWord at h
  split at h
  case h_1 => exact encode_of_decodeFamily0 h
  case h_9 hf => exact encode_of_decodeFamily8 hf h
  case h_15 hf => exact encode_of_decodeFamilyE hf h
  case h_16 hf => exact encode_of_decodeFamilyF hf h
  case h_6 hf | h_10 hf =>
    split at h <;> cases h
    next hn => exact ⟨packXYN_of_fieldSub hf hn, rfl⟩
  case h_2 hf | h_3 hf | h_11 hf | h_12 hf => cases h; exact ⟨packNNN_of_fieldF hf, rfl⟩
  case h_4 hf | h_5 hf | h_7 hf | h_8 hf | h_13 hf => cases h; exact ⟨packXKK_of_fieldF hf, rfl⟩
  case h_14 hf => cases h; exact ⟨packXYN_of_fieldSub hf (ofFin_fieldN w).symm, rfl⟩
  case h_17 => cases h

end

/-! ## A word that matches a row of the opcode map (R56) -/

/-- Every instruction's word matches its row. -/
theorem encode_and_mask (i : Instr) : encode i &&& i.row.mask = i.row.pattern := by
  cases i with
  | cls => exact Laws.EncodesItsRow.cls
  | ret => exact Laws.EncodesItsRow.ret
  | halt => exact Laws.EncodesItsRow.halt
  | jp nnn => exact Laws.EncodesItsRow.jp nnn
  | call nnn => exact Laws.EncodesItsRow.call nnn
  | seVxKk x kk => exact Laws.EncodesItsRow.seVxKk x kk
  | sneVxKk x kk => exact Laws.EncodesItsRow.sneVxKk x kk
  | seVxVy x y => exact Laws.EncodesItsRow.seVxVy x y
  | ldVxKk x kk => exact Laws.EncodesItsRow.ldVxKk x kk
  | addVxKk x kk => exact Laws.EncodesItsRow.addVxKk x kk
  | ldVxVy x y => exact Laws.EncodesItsRow.ldVxVy x y
  | orVxVy x y => exact Laws.EncodesItsRow.orVxVy x y
  | andVxVy x y => exact Laws.EncodesItsRow.andVxVy x y
  | xorVxVy x y => exact Laws.EncodesItsRow.xorVxVy x y
  | addVxVy x y => exact Laws.EncodesItsRow.addVxVy x y
  | subVxVy x y => exact Laws.EncodesItsRow.subVxVy x y
  | shrVx x y => exact Laws.EncodesItsRow.shrVx x y
  | subnVxVy x y => exact Laws.EncodesItsRow.subnVxVy x y
  | shlVx x y => exact Laws.EncodesItsRow.shlVx x y
  | sneVxVy x y => exact Laws.EncodesItsRow.sneVxVy x y
  | ldI nnn => exact Laws.EncodesItsRow.ldI nnn
  | jpV0 nnn => exact Laws.EncodesItsRow.jpV0 nnn
  | rnd x kk => exact Laws.EncodesItsRow.rnd x kk
  | drw x y n => exact Laws.EncodesItsRow.drw x y n
  | skp x => exact Laws.EncodesItsRow.skp x
  | sknp x => exact Laws.EncodesItsRow.sknp x
  | ldVxDt x => exact Laws.EncodesItsRow.ldVxDt x
  | ldVxK x => exact Laws.EncodesItsRow.ldVxK x
  | ldDtVx x => exact Laws.EncodesItsRow.ldDtVx x
  | ldStVx x => exact Laws.EncodesItsRow.ldStVx x
  | addIVx x => exact Laws.EncodesItsRow.addIVx x
  | ldFVx x => exact Laws.EncodesItsRow.ldFVx x
  | ldBVx x => exact Laws.EncodesItsRow.ldBVx x
  | ldMemVx x => exact Laws.EncodesItsRow.ldMemVx x
  | ldVxMem x => exact Laws.EncodesItsRow.ldVxMem x

section
variable {v w : Word}

/-- The mask of a row without operands keeps the whole word. -/
theorem eq_of_and_word (h : w &&& 0xFFFF = v &&& 0xFFFF) : w = v := by
  rwa [show (0xFFFF : Word) = BitVec.allOnes 16 from rfl, BitVec.and_allOnes, BitVec.and_allOnes] at h

/-- Words that agree under the mask of a family row agree on that field. -/
theorem fieldF_eq_of_and_family (h : w &&& 0xF000 = v &&& 0xF000) : fieldF w = fieldF v := by
  have hmask (u : Word) : fieldF u = fieldF (u &&& 0xF000) := by
    rw [← packNNN_fields u, packNNN_and_family, fieldF_packNNN, fieldF_packNNN]
  rw [hmask w, h, ← hmask v]

/-- Words that agree under the mask of a row with a low nibble agree on the family and on that nibble. -/
theorem fields_eq_of_and_nibble (h : w &&& 0xF00F = v &&& 0xF00F) :
    fieldF w = fieldF v ∧ fieldSub w = fieldSub v := by
  have hmask (u : Word) : u &&& 0xF00F = packXYN (fieldF u) 0 0 (fieldSub u) := by
    rw [← packXYN_and_nibble, packXYN_fields]
  rw [hmask, hmask] at h
  exact ⟨by simpa using congrArg fieldF h, by simpa using congrArg fieldSub h⟩

/-- Words that agree under the mask of a row with a low byte agree on the family and on that byte. -/
theorem fields_eq_of_and_byte (h : w &&& 0xF0FF = v &&& 0xF0FF) :
    fieldF w = fieldF v ∧ fieldKK w = fieldKK v := by
  have hmask (u : Word) : u &&& 0xF0FF = packXKK (fieldF u) 0 (fieldKK u) := by
    rw [← packXKK_and_byte, packXKK_fields]
  rw [hmask, hmask] at h
  exact ⟨by simpa using congrArg fieldF h, by simpa using congrArg fieldKK h⟩

end

/-- A word that matches the row of an instruction that exists decodes to an instruction of that row: the mask keeps the
fields the decoder selects by. -/
theorem decodeWord_of_and_mask {haltOnZero : Bool} {w : Word} {j : Instr} (hj : j.wellFormed haltOnZero = true)
    (h : w &&& j.row.mask = j.row.pattern) : ∃ i, decodeWord haltOnZero w = some i ∧ i.row = j.row := by
  rw [← encode_and_mask j] at h
  cases j with
  | cls | ret | halt =>
    rw [eq_of_and_word h]
    exact ⟨_, decodeWord_encode haltOnZero _ hj, rfl⟩
  | jp | call | seVxKk | sneVxKk | ldVxKk | addVxKk | ldI | jpV0 | rnd | drw =>
    have hf := fieldF_eq_of_and_family h
    simp [decodeWord, hf, encode, Instr.row]
  | seVxVy | ldVxVy | orVxVy | andVxVy | xorVxVy | addVxVy | subVxVy | shrVx | subnVxVy | shlVx | sneVxVy =>
    obtain ⟨hf, hn⟩ := fields_eq_of_and_nibble h
    simp [decodeWord, decodeFamily8, hf, hn, encode, Instr.row]
  | skp | sknp | ldVxDt | ldVxK | ldDtVx | ldStVx | addIVx | ldFVx | ldBVx | ldMemVx | ldVxMem =>
    obtain ⟨hf, hkk⟩ := fields_eq_of_and_byte h
    simp [decodeWord, decodeFamilyE, decodeFamilyF, hf, hkk, encode, Instr.row]

/-! ## The words that decode to nothing (R57) -/

section
variable (w : Word)

theorem fieldF_eq_iff (f : BitVec 4) : fieldF w = f ↔ w.toNat / 0x1000 = f.toNat := by
  rw [← BitVec.toNat_inj, fieldF_toNat]

theorem fieldSub_eq_iff (n : BitVec 4) : fieldSub w = n ↔ w.toNat % 16 = n.toNat := by
  rw [← BitVec.toNat_inj, fieldSub_toNat]

theorem decodeFamily0_eq_none_iff (haltOnZero : Bool) : decodeFamily0 haltOnZero w = none ↔
    w.toNat ≠ 0x00E0 ∧ w.toNat ≠ 0x00EE ∧ (w.toNat ≠ 0 ∨ haltOnZero = false) := by
  unfold decodeFamily0
  split
  · simp
  · simp
  · cases haltOnZero <;> simp
  · next h1 h2 h3 =>
    have ne_of (c : Word) (h : w ≠ c) : w.toNat ≠ c.toNat := fun e => h (BitVec.eq_of_toNat_eq e)
    simpa using ⟨ne_of _ h1, ne_of _ h2, .inl (ne_of _ h3)⟩

theorem decodeFamily8_eq_none_iff :
    decodeFamily8 w = none ↔ w.toNat % 16 ∈ [0x8, 0x9, 0xA, 0xB, 0xC, 0xD, 0xF] := by
  have hlt : w.toNat % 16 < 16 := Nat.mod_lt _ (by decide)
  rw [← fieldSub_toNat] at hlt ⊢
  unfold decodeFamily8
  split <;> simp_all [← BitVec.toNat_inj]
  omega

theorem decodeFamilyE_eq_none_iff : decodeFamilyE w = none ↔ w.toNat % 256 ∉ [0x9E, 0xA1] := by
  rw [← fieldKK_toNat]
  unfold decodeFamilyE
  split <;> simp_all [← BitVec.toNat_inj]

theorem decodeFamilyF_eq_none_iff :
    decodeFamilyF w = none ↔ w.toNat % 256 ∉ [0x07, 0x0A, 0x15, 0x18, 0x1E, 0x29, 0x33, 0x55, 0x65] := by
  rw [← fieldKK_toNat]
  unfold decodeFamilyF
  split <;> simp_all [← BitVec.toNat_inj]

end

end Sys2Proof

namespace Sys2Proof.Machine

/-! ## The obligations -/

/-- Settles O1: the decoder reads back from a packed word each field it was packed from. -/
theorem encodedInstructionsDecodeBack : Obligations.EncodedInstructionsDecodeBack := by
  intro haltOnZero i hi
  exact ⟨decodeWord_encode haltOnZero i hi, decode_bytesOfWord (decodeWord_encode haltOnZero i hi)⟩

/-- Settles O2: the fields the decoder selects by are those the encoder writes, and the operands are all the others. -/
theorem decodedWordsEncodeBack : Obligations.DecodedWordsEncodeBack :=
  fun _ _ _ h => encode_of_decodeWord h

/-- Settles O3: a word that decodes is its instruction's word (O2) and so matches that instruction's row; a word that
matches a row has the fields the decoder selects that row by. -/
theorem opcodeMapDecidesEveryWord : Obligations.OpcodeMapDecidesEveryWord := by
  refine ⟨fun haltOnZero w i h => ?_, fun haltOnZero w j hj hw => decodeWord_of_and_mask hj hw⟩
  rw [← (encode_of_decodeWord h).1, encode_and_mask]

/-- Settles O4: by the family nibble; each family's decoder rejects the words of its own line of the table. -/
theorem unrecognizedWordsAreTheListedOnes : Obligations.UnrecognizedWordsAreTheListedOnes := by
  intro haltOnZero w
  have hlow : w.toNat < 0x1000 ↔ w.toNat / 0x1000 = 0 := by omega
  rw [hlow]
  unfold decodeWord
  split
  case h_1 hf =>
    have hfam : w.toNat / 0x1000 = 0 := (fieldF_eq_iff w _).mp hf
    simp [hfam, decodeFamily0_eq_none_iff]
  case h_6 hf | h_10 hf =>
    have hfam := (fieldF_eq_iff w _).mp hf
    simp [hfam, fieldSub_eq_iff]
  case h_9 hf | h_15 hf | h_16 hf =>
    have hfam := (fieldF_eq_iff w _).mp hf
    simp [hfam, decodeFamily8_eq_none_iff, decodeFamilyE_eq_none_iff, decodeFamilyF_eq_none_iff]
  case h_17 =>
    exfalso
    have hlt := w.isLt
    simp only [fieldF_eq_iff, BitVec.toNat_ofNat, imp_false] at *
    omega
  all_goals next hf =>
    have hfam := (fieldF_eq_iff w _).mp hf
    simp [hfam]

/-- Settles O5: the decoder runs on each of the words. -/
theorem wordsFromTheOpcodeMapDecode : Obligations.WordsFromTheOpcodeMapDecode := by
  unfold Obligations.WordsFromTheOpcodeMapDecode
  decide

end Sys2Proof.Machine
end

section
/-!
PROOFS. The step (spec/40_dispatch.md): whose turn it is, and what the instruction agent does on its turn.
-/

namespace Sys2Proof.Machine

/-! ## The instruction agent's turn, case by case (R60, R61, R65, R66) -/

/-- The instruction agent has a step, and that step fetches: the bytes at `pc` lie in the program region (R60, R61). -/
structure AtInstruction (s : State) : Prop where
  running : s.running = true
  wait : s.wait = none
  pc : s.pc.toNat + 2 ≤ s.cfg.progEnd

section
variable {s : State} {w : Word} {i : Instr}

theorem instructionEnabled_iff : s.instructionEnabled = true ↔ s.running = true ∧ s.wait = none := by
  simp [State.instructionEnabled]

theorem pastEnd_iff : s.pastEnd = true ↔ s.cfg.progEnd < s.pc.toNat + 2 := by
  simp [State.pastEnd]

theorem AtInstruction.enabled (h : AtInstruction s) : s.instructionEnabled = true :=
  instructionEnabled_iff.mpr ⟨h.running, h.wait⟩

theorem AtInstruction.not_pastEnd (h : AtInstruction s) : ¬ s.pastEnd = true := fun hpast =>
  absurd (pastEnd_iff.mp hpast) (Nat.not_lt.mpr h.pc)

/-- A fetch inside memory (R42, R62). -/
theorem fetchWord_of_le (h : s.pc.toNat + 2 ≤ 4096) :
    fetchWord s = some (wordOfBytes (s.byteAt s.pc.toNat) (s.byteAt (s.pc.toNat + 1))) := if_pos h

theorem instructionStep_of_disabled (h : ¬ (s.running = true ∧ s.wait = none)) : instructionStep s = .next s :=
  if_neg (mt instructionEnabled_iff.mp h)

theorem instructionStep_of_pastEnd (hrun : s.running = true) (hwait : s.wait = none)
    (h : s.cfg.progEnd < s.pc.toNat + 2) : instructionStep s = .next (endRun .pastProgramEnd s) := by
  rw [instructionStep, if_pos (instructionEnabled_iff.mpr ⟨hrun, hwait⟩), if_pos (pastEnd_iff.mpr h)]

theorem instructionStep_of_fetch_none (h : AtInstruction s) (hw : fetchWord s = none) :
    instructionStep s = .fault .outsideMemory := by
  rw [instructionStep, if_pos h.enabled, if_neg h.not_pastEnd, hw]

theorem instructionStep_of_decode_some (h : AtInstruction s) (hw : fetchWord s = some w)
    (hi : decodeWord s.cfg.haltOnZero w = some i) : instructionStep s = exec i s := by
  simp only [instructionStep, if_pos h.enabled, if_neg h.not_pastEnd, hw, hi]

theorem instructionStep_of_decode_none (h : AtInstruction s) (hw : fetchWord s = some w)
    (hi : decodeWord s.cfg.haltOnZero w = none) : instructionStep s = .next (unrecognized w s) := by
  simp only [instructionStep, if_pos h.enabled, if_neg h.not_pastEnd, hw, hi]

/-- Everything the instruction agent's turn can do. -/
theorem instructionStep_cases (s : State) :
    (¬ (s.running = true ∧ s.wait = none) ∧ instructionStep s = .next s) ∨
    (s.running = true ∧ s.wait = none ∧ s.cfg.progEnd < s.pc.toNat + 2 ∧
      instructionStep s = .next (endRun .pastProgramEnd s)) ∨
    (AtInstruction s ∧ fetchWord s = none ∧ instructionStep s = .fault .outsideMemory) ∨
    (AtInstruction s ∧ ∃ i, instructionStep s = exec i s) ∨
    (AtInstruction s ∧ ∃ w, instructionStep s = .next (unrecognized w s)) := by
  by_cases hen : s.running = true ∧ s.wait = none
  · obtain ⟨hrun, hwait⟩ := hen
    by_cases hpast : s.cfg.progEnd < s.pc.toNat + 2
    · exact .inr (.inl ⟨hrun, hwait, hpast, instructionStep_of_pastEnd hrun hwait hpast⟩)
    · have hat : AtInstruction s := ⟨hrun, hwait, Nat.not_lt.mp hpast⟩
      refine .inr (.inr ?_)
      cases hw : fetchWord s with
      | none => exact .inl ⟨hat, rfl, instructionStep_of_fetch_none hat hw⟩
      | some w =>
        cases hi : decodeWord s.cfg.haltOnZero w with
        | none => exact .inr (.inr ⟨hat, w, instructionStep_of_decode_none hat hw hi⟩)
        | some i => exact .inr (.inl ⟨hat, i, instructionStep_of_decode_some hat hw hi⟩)
  · exact .inl ⟨hen, instructionStep_of_disabled hen⟩

/-! ## An unrecognized word (R65) -/

theorem unrecognized_of_strict (h : s.cfg.lenientUnknown = false) :
    unrecognized w s = raiseError .unknownInstruction w s := by
  simp [unrecognized, h]

theorem unrecognized_of_lenient (h : s.cfg.lenientUnknown = true) :
    unrecognized w s = (s.emit (.log w s.pc)).advance := if_pos h

/-! ## Whose turn (R120) -/

theorem step_of_no_moves (h : s.moves = []) : step s = agentStep .instruction s := by
  rw [step, takeTurn_nil s h]

theorem step_of_moves {m : Move} {rest : List Move} (h : s.moves = m :: rest) :
    step s = agentStep m { s with moves := rest } := by
  rw [step, takeTurn_cons s m rest h]

end

/-! ## The obligations -/

/-- Settles O6: the turn is the instruction agent's, the fetch is inside memory and its word decodes. -/
theorem stepRunsTheDecodedInstruction : Obligations.StepRunsTheDecodedInstruction := by
  intro s i hrun hwait hpc hend hdec
  constructor
  · intro hm
    rw [step_of_no_moves hm]
    exact instructionStep_of_decode_some ⟨hrun, hwait, hpc⟩ (fetchWord_of_le (by omega)) hdec
  · intro rest hm
    rw [step_of_moves hm]
    have hat : AtInstruction { s with moves := rest } := ⟨hrun, hwait, hpc⟩
    exact instructionStep_of_decode_some hat (fetchWord_of_le (hpc.trans hend)) hdec

/-- Settles O7: `takeTurn` takes the first of `moves`. -/
theorem turnsAreTakenInOrder : Obligations.TurnsAreTakenInOrder :=
  fun _ => ⟨step_of_no_moves, fun _ _ => step_of_moves⟩

/-- Settles O8: the boundary check comes before the fetch, and what it does is `endRun`. -/
theorem pastTheEndTheRunEndsCleanly : Obligations.PastTheEndTheRunEndsCleanly :=
  fun s hrun hwait h => ⟨_, instructionStep_of_pastEnd hrun hwait h, endRun_endedBy .pastProgramEnd s⟩

/-- Settles O9: the step is `unrecognized`, which raises or logs by the mode. -/
theorem unrecognizedWordsRaiseOrAreLogged : Obligations.UnrecognizedWordsRaiseOrAreLogged := by
  rintro s w hrun hwait hpc hend rfl hdec
  have hstep := instructionStep_of_decode_none ⟨hrun, hwait, hpc⟩ (fetchWord_of_le (hpc.trans hend)) hdec
  constructor
  · intro hmode
    rw [unrecognized_of_strict hmode] at hstep
    exact ⟨_, hstep, raiseError_endedBy ..⟩
  · intro hmode
    rw [unrecognized_of_lenient hmode] at hstep
    exact ⟨_, hstep, rfl, rfl, (frame_emit s _).advance⟩

/-- Settles O10: each agent's turn tests whether it has a step before anything else. -/
theorem disabledAgentsChangeNothing : Obligations.DisabledAgentsChangeNothing := by
  refine ⟨fun s hrun => ?_, fun s r hwait => ?_, fun s htimers => ?_⟩
  · exact instructionStep_of_disabled fun h => by simp [hrun] at h
  · exact instructionStep_of_disabled fun h => by simp [hwait] at h
  · simp [agentStep, timerStep, htimers]

end Sys2Proof.Machine
end

section
/-!
PROOFS. Control flow (spec/41_control_flow.md): return, halt, jumps, call, skips, and the stack discipline.
-/

namespace Sys2Proof.Machine

/-! ## The meanings, case by case -/

section
variable {s : State} {v : Word} {rest : List Word} (x y : Reg) (kk : Byte) (nnn : Addr12)

theorem exec_ret_cons (h : s.stack = v :: rest) : exec .ret s = .next ((s.setStack rest).setPc v) := by
  simp [exec, execRet, State.pop, h]

theorem exec_ret_nil (h : s.stack = []) : exec .ret s = .next (raiseError .stackUnderflow (encode .ret) s) := by
  simp [exec, execRet, State.pop, h]

theorem exec_call_of_lt (h : s.stack.length < 16) :
    exec (.call nnn) s = .next ((s.setStack ((s.pc + 2) :: s.stack)).setPc (zext16 nnn)) := by
  simp [exec, execCall, State.push, h]

theorem exec_call_of_full (h : 16 ≤ s.stack.length) :
    exec (.call nnn) s = .next (raiseError .stackOverflow (encode (.call nnn)) s) := by
  simp [exec, execCall, State.push, Nat.not_lt.mpr h]

theorem exec_halt (s : State) : exec .halt s = .next (endRun .halted s) := rfl

theorem exec_jp (s : State) : exec (.jp nnn) s = .next (s.setPc (zext16 nnn)) := rfl

theorem exec_jpV0 (s : State) : exec (.jpV0 nnn) s = .next (s.setPc (indexedTarget nnn s)) := rfl

theorem exec_seVxKk (s : State) : exec (.seVxKk x kk) s = .next (s.skipIf (s.reg x == kk)) := rfl

theorem exec_sneVxKk (s : State) : exec (.sneVxKk x kk) s = .next (s.skipIf (s.reg x != kk)) := rfl

theorem exec_seVxVy (s : State) : exec (.seVxVy x y) s = .next (s.skipIf (s.reg x == s.reg y)) := rfl

theorem exec_sneVxVy (s : State) : exec (.sneVxVy x y) s = .next (s.skipIf (s.reg x != s.reg y)) := rfl

end

/-! ## Skips (R73) -/

section
variable {s : State} {i : Instr} {c : Bool} {p : Prop} [Decidable p]

/-- All that a skip does whose condition is `p`. -/
theorem exec_effect_of_skipIf (hexec : exec i s = .next (s.skipIf c)) (hc : c = true ↔ p) :
    ∃ t, exec i s = .next t ∧ Frame [] s t ∧ t.pc = if p then s.pc + 4 else s.pc + 2 := by
  refine ⟨_, hexec, (Frame.refl s).skipIf c, ?_⟩
  rw [skipIf_pc]
  by_cases hp : p
  · rw [if_pos hp, if_pos (hc.mpr hp)]
  · rw [if_neg hp, if_neg (mt hc.mp hp)]

/-- All that a skip does which is taken where `p` does not hold. -/
theorem exec_effect_of_skipIf_not (hexec : exec i s = .next (s.skipIf c)) (hc : c = true ↔ ¬ p) :
    ∃ t, exec i s = .next t ∧ Frame [] s t ∧ t.pc = if p then s.pc + 2 else s.pc + 4 := by
  obtain ⟨t, ht, hframe, hpc⟩ := exec_effect_of_skipIf hexec hc
  exact ⟨t, ht, hframe, hpc.trans (ite_not p _ _)⟩

end

/-! ## Calls and returns -/

section
variable {s t : State}

/-- A change of the stack that is undone is no change. -/
theorem Frame.of_stack_eq (h : Frame [.stack] s t) (hstack : t.stack = s.stack) : Frame [] s t := by
  constructor <;> intros
  case stack => exact hstack
  case reg => exact h.reg _ (by simp)
  case cfg => exact h.cfg
  case moves => exact h.moves
  case reply => exact h.reply
  case memory => exact h.memory (by simp) _
  case index => exact h.index (by simp)
  case delay => exact h.delay (by simp)
  case sound => exact h.sound (by simp)
  case keys => exact h.keys (by simp)
  case wait => exact h.wait (by simp)
  case display => exact h.display (by simp)
  case dirty => exact h.dirty (by simp)
  case running => exact h.running (by simp)
  case timersOn => exact h.timersOn (by simp)
  case endReason => exact h.endReason (by simp)
  case out => exact h.out (by simp)
  case draws => exact h.draws (by simp)

theorem execAll_cons_of_next {i : Instr} (is : List Instr) (h : exec i s = .next t) :
    execAll (i :: is) s = execAll is t := by
  rw [execAll, h]

theorem execAll_append_of_next {is : List Instr} (js : List Instr) (h : execAll is s = .next t) :
    execAll (is ++ js) s = execAll js t := by
  induction is generalizing s with
  | nil => cases h; rfl
  | cons i is ih =>
    rw [List.cons_append]
    cases hi : exec i s with
    | next u =>
      rw [execAll_cons_of_next _ hi] at h ⊢
      exact ih h
    | fault f => rw [execAll, hi] at h; cases h
    | refused r => rw [execAll, hi] at h; cases h

/-- Calls and as many returns, by induction on the targets: the outer call's address comes back last. -/
theorem execAll_calls_returns (targets : List Addr12) (hfit : s.stack.length + targets.length ≤ 16) :
    ∃ t, execAll (targets.map Instr.call ++ List.replicate targets.length Instr.ret) s = .next t ∧
      (targets ≠ [] → t.pc = s.pc + 2) ∧ t.stack = s.stack ∧ Frame [] s t := by
  induction targets generalizing s with
  | nil => exact ⟨s, rfl, fun h => absurd rfl h, rfl, Frame.refl s⟩
  | cons nnn targets ih =>
    rw [List.length_cons] at hfit
    have hcall := exec_call_of_lt nnn (s := s) (by omega)
    obtain ⟨t, hinner, -, hstack, hframe⟩ := ih (s := (s.setStack ((s.pc + 2) :: s.stack)).setPc (zext16 nnn))
      (by simp only [setPc_stack, setStack_stack, List.length_cons]; omega)
    have hframe' : Frame [.stack] s ((t.setStack s.stack).setPc (s.pc + 2)) :=
      ((((frame_setStack s _).setPc _).trans hframe).trans (frame_setStack t _)).setPc _ |>.mono (by simp)
    refine ⟨(t.setStack s.stack).setPc (s.pc + 2), ?_, fun _ => rfl, rfl, hframe'.of_stack_eq rfl⟩
    rw [List.length_cons, List.replicate_succ', List.map_cons, List.cons_append, ← List.append_assoc,
      execAll_cons_of_next _ hcall, execAll_append_of_next _ hinner, execAll_cons_of_next _ (exec_ret_cons hstack)]
    rfl

end

/-! ## Words and addresses as numbers -/

theorem encode_call (nnn : Addr12) : encode (.call nnn) = BitVec.ofNat 16 (0x2000 + nnn.toNat) := by
  have h := nnn.isLt
  apply BitVec.eq_of_toNat_eq
  rw [encode, packNNN_toNat, BitVec.toNat_ofNat, Nat.mod_eq_of_lt (by omega)]
  rfl

/-- A `pc` in the program region does not wrap when it advances (R22, R23). -/
theorem advanced_pc_toNat {s : State} (hcfg : s.cfg.wf) (hpc : s.pc.toNat + 2 ≤ s.cfg.progEnd) :
    (s.pc + 2).toNat = s.pc.toNat + 2 ∧ (s.pc + 2).toNat ≤ 0x1000 := by
  obtain ⟨-, hend, -⟩ := hcfg
  have hsum : (s.pc + 2).toNat = s.pc.toNat + 2 := by
    rw [BitVec.toNat_add_of_lt]
    · rfl
    · show s.pc.toNat + 2 < 65536
      omega
  omega

/-- The sum of `Bnnn` does not wrap: at most 0xFFF + 0xFF. -/
theorem indexedTarget_toNat (nnn : Addr12) (s : State) :
    (indexedTarget nnn s).toNat = nnn.toNat + (s.reg regV0).toNat := by
  have hn := nnn.isLt
  have hv := (s.reg regV0).isLt
  have hz : ((s.reg regV0).setWidth 16).toNat = (s.reg regV0).toNat := BitVec.toNat_setWidth_of_le (by decide)
  rw [indexedTarget, BitVec.toNat_add_of_lt, zext16_toNat, hz]
  rw [zext16_toNat, hz]
  omega

/-! ## The obligations -/

/-- Settles O18: `pop` is the whole of RET's choice, and a call leaves the address it pushed on top. -/
theorem returnPopsTheReturnAddress : Obligations.ReturnPopsTheReturnAddress := by
  refine ⟨fun s v rest h => ?_, fun s h => ?_, fun s nnn h => ?_⟩
  · exact ⟨_, exec_ret_cons h, rfl, rfl, (frame_setStack s rest).setPc v⟩
  · exact ⟨_, exec_ret_nil h, raiseError_endedBy ..⟩
  · exact ⟨_, _, exec_call_of_lt nnn h, exec_ret_cons rfl, rfl, rfl⟩

/-- Settles O19: `push` is the whole of CALL's choice. -/
theorem callPushesTheReturnAddress : Obligations.CallPushesTheReturnAddress := by
  refine fun s nnn => ⟨fun h => ?_, fun h => ?_⟩
  · exact ⟨_, exec_call_of_lt nnn h, rfl, zext16_toNat nnn, (frame_setStack s _).setPc _, advanced_pc_toNat⟩
  · refine ⟨_, exec_call_of_full nnn h.ge, ?_⟩
    rw [← encode_call]
    exact raiseError_endedBy ..

/-- Settles O20: by induction on the targets (`execAll_calls_returns`). -/
theorem nestedCallsThenReturnsComeBack : Obligations.NestedCallsThenReturnsComeBack := by
  intro s targets hne hfit
  obtain ⟨t, hexec, hpc, hrest⟩ := execAll_calls_returns targets hfit
  exact ⟨t, hexec, hpc hne, hrest⟩

/-- Settles O21: HALT is one `endRun`. -/
theorem haltEndsTheRun : Obligations.HaltEndsTheRun :=
  fun s => ⟨_, exec_halt s, endRun_endedBy .halted s⟩

/-- Settles O22: JP writes `pc` alone, and the zero extension keeps the target. -/
theorem jumpGoesToItsTarget : Obligations.JumpGoesToItsTarget :=
  fun s nnn => ⟨_, exec_jp nnn s, zext16_toNat nnn, (Frame.refl s).setPc _⟩

/-- Settles O23: the target is a sum without wrap, and past the end the next turn ends the run (O8). -/
theorem indexedJumpAddsV0 : Obligations.IndexedJumpAddsV0 := by
  intro s nnn
  have hsum := indexedTarget_toNat nnn s
  refine ⟨_, exec_jpV0 nnn s, hsum, (Frame.refl s).setPc _, fun hrun hwait hpast => ?_⟩
  refine pastTheEndTheRunEndsCleanly _ hrun hwait ?_
  rw [setPc_pc, setPc_cfg, hsum]
  exact hpast

/-- Settles O24: each is one skip, of its own condition. -/
theorem registerSkipsTestTheirOperands : Obligations.RegisterSkipsTestTheirOperands := by
  intro s x y kk
  exact ⟨exec_effect_of_skipIf (exec_seVxKk x kk s) beq_iff_eq,
    exec_effect_of_skipIf_not (exec_sneVxKk x kk s) bne_iff_ne,
    exec_effect_of_skipIf (exec_seVxVy x y s) beq_iff_eq,
    exec_effect_of_skipIf_not (exec_sneVxVy x y s) bne_iff_ne⟩

end Sys2Proof.Machine
end

section
/-!
PROOFS. Register arithmetic with a flag (spec/42_alu.md R87-R92): carry, no borrow, the bit shifted out, and the random byte.
-/

namespace Sys2Proof.Machine

/-! ## Flags and results as numbers -/

section
variable (a b : Byte)

theorem flagByte_toNat (p : Prop) [Decidable p] : (flagByte (decide p)).toNat = if p then 1 else 0 := by
  by_cases hp : p <;> simp [flagByte, hp]

theorem carryFlag_toNat : (carryFlag a b).toNat = if a.toNat + b.toNat > 255 then 1 else 0 :=
  flagByte_toNat _

theorem noBorrowFlag_toNat : (noBorrowFlag a b).toNat = if a.toNat ≥ b.toNat then 1 else 0 :=
  flagByte_toNat _

theorem sub_toNat_eq_emod : ((a - b).toNat : Int) = ((a.toNat : Int) - b.toNat) % 256 := by
  have ha := a.isLt
  have hb := b.isLt
  rw [BitVec.toNat_sub]
  omega

theorem shiftedOutRight_toNat : (shiftedOutRight a).toNat = a.toNat % 2 := by
  simp [shiftedOutRight, BitVec.toNat_and, Nat.and_one_is_mod]

theorem shiftedOutLeft_toNat : (shiftedOutLeft a).toNat = a.toNat / 128 := by
  have ha := a.isLt
  simp [shiftedOutLeft, BitVec.toNat_and, Nat.and_one_is_mod, Nat.shiftRight_eq_div_pow]
  omega

theorem shiftRight_one_toNat : (a >>> 1).toNat = a.toNat / 2 := by
  simp [Nat.shiftRight_eq_div_pow]

theorem shiftLeft_one_toNat : (a <<< 1).toNat = a.toNat * 2 % 256 := by
  simp [Nat.shiftLeft_eq]

end

/-! ## The shared meanings -/

section
variable (x : Reg) (v flag : Byte) (s : State)

/-- All that `V[x] <- v; VF <- flag; pc <- pc + 2` does: the flag is what stays in VF (D11). -/
theorem writeThenFlag_effect :
    ∃ t, writeThenFlag x v flag s = .next t ∧ (x ≠ regVF → t.reg x = v) ∧ t.reg regVF = flag ∧ t.pc = s.pc + 2 ∧
      Frame [.reg x, .reg regVF] s t := by
  refine ⟨((s.setReg x v).setFlag flag).advance, rfl, fun hx => ?_, reg_setReg_self _ regVF flag, rfl,
    ((frame_setReg s x v).trans (frame_setFlag _ flag)).advance⟩
  exact (reg_setReg_ne _ regVF x flag hx).trans (reg_setReg_self s x v)

/-- All that `VF <- flag; V[x] <- v; pc <- pc + 2` does: the flag stays in VF unless VF is the destination (D11). -/
theorem writeAndAdvance_setFlag_effect :
    ∃ t, writeAndAdvance x v (s.setFlag flag) = .next t ∧ t.reg x = v ∧ (x ≠ regVF → t.reg regVF = flag) ∧
      t.pc = s.pc + 2 ∧ Frame [.reg x, .reg regVF] s t := by
  obtain ⟨t, ht, hreg, hpc, hframe⟩ := writeAndAdvance_effect x v (s.setFlag flag)
  refine ⟨t, ht, hreg, fun hx => ?_, hpc, ((frame_setFlag s flag).trans hframe).mono (by simp)⟩
  rw [hframe.reg regVF (by simp [hx.symm]), reg_setFlag, if_pos rfl]

end

section
variable (x y : Reg) (kk : Byte) (s : State)

theorem exec_addVxVy :
    exec (.addVxVy x y) s = writeThenFlag x (s.reg x + s.reg y) (carryFlag (s.reg x) (s.reg y)) s := rfl

theorem exec_subVxVy :
    exec (.subVxVy x y) s = writeThenFlag x (s.reg x - s.reg y) (noBorrowFlag (s.reg x) (s.reg y)) s := rfl

theorem exec_subnVxVy :
    exec (.subnVxVy x y) s = writeThenFlag x (s.reg y - s.reg x) (noBorrowFlag (s.reg y) (s.reg x)) s := rfl

theorem exec_shrVx : exec (.shrVx x y) s =
    writeAndAdvance x ((s.setFlag (shiftedOutRight (s.reg x))).reg x >>> 1) (s.setFlag (shiftedOutRight (s.reg x))) := rfl

theorem exec_shlVx : exec (.shlVx x y) s =
    writeAndAdvance x ((s.setFlag (shiftedOutLeft (s.reg x))).reg x <<< 1) (s.setFlag (shiftedOutLeft (s.reg x))) := rfl

theorem exec_rnd : exec (.rnd x kk) s = writeAndAdvance x (s.drawByte &&& kk) s.countDraw := rfl

end

/-! ## The obligations -/

/-- Settles O27: the byte sum wraps at 256, and the flag is written last. -/
theorem addSetsTheCarry : Obligations.AddSetsTheCarry := by
  intro s x y
  obtain ⟨t, hexec, hreg, hflag, hrest⟩ :=
    writeThenFlag_effect x (s.reg x + s.reg y) (carryFlag (s.reg x) (s.reg y)) s
  refine ⟨t, (exec_addVxVy x y s).trans hexec, fun hx => ?_, ?_, hrest⟩
  · rw [hreg hx, BitVec.toNat_add]
  · rw [hflag, carryFlag_toNat]

/-- Settles O28: SUB and SUBN are one meaning with the operands exchanged. -/
theorem subtractionsSetNoBorrow : Obligations.SubtractionsSetNoBorrow := by
  have heffect (i : Instr) (s : State) (x : Reg) (a b : Byte)
      (hi : exec i s = writeThenFlag x (a - b) (noBorrowFlag a b) s) :
      ∃ t, exec i s = .next t ∧ (x ≠ 15 → ((t.reg x).toNat : Int) = ((a.toNat : Int) - b.toNat) % 256) ∧
        (t.reg 15).toNat = (if a.toNat ≥ b.toNat then 1 else 0) ∧ t.pc = s.pc + 2 ∧ Frame [.reg x, .reg 15] s t := by
    obtain ⟨t, hexec, hreg, hflag, hrest⟩ := writeThenFlag_effect x (a - b) (noBorrowFlag a b) s
    refine ⟨t, hi.trans hexec, fun hx => ?_, ?_, hrest⟩
    · rw [hreg hx, sub_toNat_eq_emod]
    · rw [hflag, noBorrowFlag_toNat]
  exact fun s x y => ⟨heffect _ s x _ _ (exec_subVxVy x y s), heffect _ s x _ _ (exec_subnVxVy x y s)⟩

/-- Settles O29: the flag is written first, so a shift of another register reads V[x] as it was, and a shift of VF reads
the flag. -/
theorem shiftsMoveByOneBit : Obligations.ShiftsMoveByOneBit := by
  intro s x y
  constructor
  · obtain ⟨t, hexec, hreg, hflag, hpc, hframe⟩ :=
      writeAndAdvance_setFlag_effect x ((s.setFlag (shiftedOutRight (s.reg x))).reg x >>> 1) (shiftedOutRight (s.reg x)) s
    refine ⟨t, (exec_shrVx x y s).trans hexec, fun hx => ⟨?_, ?_⟩, fun hx => ?_, hpc, hframe⟩
    · rw [hreg, shiftRight_one_toNat, reg_setFlag, if_neg hx]
    · rw [hflag hx, shiftedOutRight_toNat]
    · subst hx
      rw [hreg, shiftRight_one_toNat, reg_setFlag, if_pos rfl, shiftedOutRight_toNat]
      omega
  · obtain ⟨t, hexec, hreg, hflag, hpc, hframe⟩ :=
      writeAndAdvance_setFlag_effect x ((s.setFlag (shiftedOutLeft (s.reg x))).reg x <<< 1) (shiftedOutLeft (s.reg x)) s
    refine ⟨t, (exec_shlVx x y s).trans hexec, fun hx => ⟨?_, ?_⟩, fun hx => ?_, hpc, hframe⟩
    · rw [hreg, shiftLeft_one_toNat, reg_setFlag, if_neg hx]
    · rw [hflag hx, shiftedOutLeft_toNat]
    · subst hx
      have hlt := (s.reg 15).isLt
      rw [hreg, shiftLeft_one_toNat, reg_setFlag, if_pos rfl, shiftedOutLeft_toNat]
      omega

/-- Settles O30: RND is one `writeAndAdvance` of the masked draw, after the draw is counted. -/
theorem randomByteIsMasked : Obligations.RandomByteIsMasked := by
  intro s x kk
  obtain ⟨t, hexec, hreg, hpc, hframe⟩ := writeAndAdvance_effect x (s.drawByte &&& kk) s.countDraw
  exact ⟨t, (exec_rnd x kk s).trans hexec, hreg, hframe.draws (by simp), hpc,
    ((frame_countDraw s).trans hframe).mono (by simp)⟩

end Sys2Proof.Machine
end

section
/-!
PROOFS. The index register and memory (spec/43_index_memory.md, spec/20_memory.md): stores, loads, the host's `load`, and
what a later load or fetch sees of them.
-/

namespace Sys2Proof.Machine

/-! ## Stores at `I` (R40, R41) -/

section
variable {bs : List Byte} {w : Word} {s t : State}

theorem storeAtIndex_of_span (h : spanExists (dataAddress s) bs.length) :
    storeAtIndex bs w s = .next (s.setMem (Memory.writeBytes s.cfg.font s.mem (dataAddress s) bs)).advance := by
  rw [storeAtIndex, memWrite, if_pos h]

theorem storeAtIndex_of_not_span (h : ¬ spanExists (dataAddress s) bs.length) :
    storeAtIndex bs w s = .next (raiseError .memoryOutOfRange w s) := by
  rw [storeAtIndex, memWrite, if_neg h]

/-- `t` holds `bs` at address `a`, every other byte as in `s`, and differs from `s` in nothing else but `pc`. -/
structure StoredAt (a : Nat) (bs : List Byte) (s t : State) : Prop where
  stored : ∀ j, j < bs.length → t.byteAt (a + j) = bs.getD j 0
  others : ∀ c, c < a ∨ a + bs.length ≤ c → t.byteAt c = s.byteAt c
  frame : Frame [.memory] s t

theorem setMem_storedAt (a : Nat) (bs : List Byte) (s : State) :
    StoredAt a bs s (s.setMem (Memory.writeBytes s.cfg.font s.mem a bs)) where
  stored j hj := by rw [byteAt_writeBytes, if_pos (by omega), Nat.add_sub_cancel_left]
  others c hc := by rw [byteAt_writeBytes, if_neg (by omega)]
  frame := frame_setMem s _

/-- The state after a store does not depend on `pc`. -/
theorem StoredAt.setPc {a : Nat} (h : StoredAt a bs s t) (v : Word) : StoredAt a bs s (t.setPc v) where
  stored := h.stored
  others := h.others
  frame := h.frame.setPc v

/-- All that a store at `I` inside memory does. -/
theorem storeAtIndex_effect (w : Word) (h : dataAddress s + bs.length ≤ 4096) :
    ∃ t, storeAtIndex bs w s = .next t ∧ StoredAt (dataAddress s) bs s t ∧ t.pc = s.pc + 2 :=
  ⟨_, storeAtIndex_of_span (.inr h), (setMem_storedAt _ bs s).setPc _, rfl⟩

/-- All that a store at `I` past the end of memory does. -/
theorem storeAtIndex_endedBy (w : Word) (hne : bs.length ≠ 0) (h : 4096 < dataAddress s + bs.length) :
    ∃ t, storeAtIndex bs w s = .next t ∧ EndedBy (.error .memoryOutOfRange s.pc w) s t :=
  ⟨_, storeAtIndex_of_not_span (by rintro (h0 | hle) <;> omega), raiseError_endedBy ..⟩

end

/-! ## The stores and loads, and their words -/

section
variable (x : Reg) {s : State}

theorem exec_ldBVx (s : State) :
    exec (.ldBVx x) s = storeAtIndex (bcdDigits (s.reg x)) (encode (.ldBVx x)) s := rfl

theorem exec_ldMemVx (s : State) :
    exec (.ldMemVx x) s = storeAtIndex (s.regsUpTo x) (encode (.ldMemVx x)) s := rfl

theorem exec_ldVxMem_of_span (h : spanExists (dataAddress s) (x.val + 1)) :
    exec (.ldVxMem x) s =
      .next (s.setRegs (Memory.readBytes s.cfg.font s.mem (dataAddress s) (x.val + 1))).advance := by
  rw [exec, execLdVxMem, memRead, if_pos h]

theorem exec_ldVxMem_of_not_span (h : ¬ spanExists (dataAddress s) (x.val + 1)) :
    exec (.ldVxMem x) s = .next (raiseError .memoryOutOfRange (encode (.ldVxMem x)) s) := by
  rw [exec, execLdVxMem, memRead, if_neg h]

theorem exec_addIVx (s : State) : exec (.addIVx x) s = .next (s.setIndex (indexSum (s.reg x) s)).advance := rfl

/-- A word whose number is known. -/
theorem eq_ofNat_of_toNat_eq {w : Word} {n : Nat} (h : w.toNat = n) : w = BitVec.ofNat 16 n := by
  rw [← h, BitVec.ofNat_toNat, BitVec.setWidth_eq]

theorem encode_ldBVx : encode (.ldBVx x) = BitVec.ofNat 16 (0xF033 + 256 * x.val) :=
  eq_ofNat_of_toNat_eq <| (packXKK_toNat _ x _).trans <| by
    change 0xF * 4096 + x.val * 256 + 0x33 = _
    omega

theorem encode_ldMemVx : encode (.ldMemVx x) = BitVec.ofNat 16 (0xF055 + 256 * x.val) :=
  eq_ofNat_of_toNat_eq <| (packXKK_toNat _ x _).trans <| by
    change 0xF * 4096 + x.val * 256 + 0x55 = _
    omega

theorem encode_ldVxMem : encode (.ldVxMem x) = BitVec.ofNat 16 (0xF065 + 256 * x.val) :=
  eq_ofNat_of_toNat_eq <| (packXKK_toNat _ x _).trans <| by
    change 0xF * 4096 + x.val * 256 + 0x65 = _
    omega

/-- A register that the loaded block has a byte for (R99). -/
theorem reg_setRegs_of_lt (s : State) (bs : List Byte) (q : Reg) (h : q.val < bs.length) :
    (s.setRegs bs).reg q = bs.getD q.val 0 := by
  rw [reg_setRegs, List.getD_eq_getElem _ _ h, List.getD_eq_getElem _ _ h]

/-- All that a load of V0 to Vx from inside memory does. -/
theorem exec_ldVxMem_effect (h : dataAddress s + x.val + 1 ≤ 4096) :
    ∃ t, exec (.ldVxMem x) s = .next t ∧ (∀ r : Reg, r ≤ x → t.reg r = s.byteAt (dataAddress s + r.val)) ∧
      (∀ r : Reg, x < r → t.reg r = s.reg r) ∧ t.pc = s.pc + 2 ∧ Frame (regsTo x) s t := by
  have hframe := frame_setRegs s (Memory.readBytes s.cfg.font s.mem (dataAddress s) (x.val + 1)) x (readBytes_length ..)
  refine ⟨_, exec_ldVxMem_of_span x (.inr h), fun r hr => ?_, fun r hr => ?_, rfl, hframe.advance⟩
  · have hlt : r.val < x.val + 1 := Nat.lt_succ_of_le hr
    exact (reg_setRegs_of_lt s _ r (by rwa [readBytes_length])).trans (readBytes_getD _ _ _ _ _ hlt)
  · exact hframe.reg r fun hmem => absurd ((mem_regsTo x r).mp hmem) (not_le.mpr hr)

/-- All that a load of V0 to Vx from past the end of memory does. -/
theorem exec_ldVxMem_endedBy (h : 4096 < dataAddress s + x.val + 1) :
    ∃ t, exec (.ldVxMem x) s = .next t ∧ EndedBy (.error .memoryOutOfRange s.pc (encode (.ldVxMem x))) s t :=
  ⟨_, exec_ldVxMem_of_not_span x (by rintro (h0 | hle) <;> omega), raiseError_endedBy ..⟩

end

/-! ## The host's `load` (R135) -/

section
variable {bytes : List Byte} {s : State}

theorem hostLoad_of_too_large (h : s.cfg.progEnd - 0x200 < bytes.length) :
    hostLoad bytes s = .next (s, .loadTooLarge) := if_pos h

theorem hostLoad_of_span (h : bytes.length ≤ s.cfg.progEnd - 0x200) (hspan : spanExists 0x200 bytes.length) :
    hostLoad bytes s = .next (s.setMem (Memory.writeBytes s.cfg.font s.mem 0x200 bytes), .done) := by
  rw [hostLoad, if_neg (Nat.not_lt.mpr h), memWrite, if_pos hspan]

theorem hostLoad_of_not_span (h : bytes.length ≤ s.cfg.progEnd - 0x200) (hspan : ¬ spanExists 0x200 bytes.length) :
    hostLoad bytes s = .fault .outsideMemory := by
  rw [hostLoad, if_neg (Nat.not_lt.mpr h), memWrite, if_neg hspan]

/-- Everything the host's `load` can do. -/
theorem hostLoad_cases (bytes : List Byte) (s : State) :
    (s.cfg.progEnd - 0x200 < bytes.length ∧ hostLoad bytes s = .next (s, .loadTooLarge)) ∨
    (bytes.length ≤ s.cfg.progEnd - 0x200 ∧ spanExists 0x200 bytes.length ∧
      hostLoad bytes s = .next (s.setMem (Memory.writeBytes s.cfg.font s.mem 0x200 bytes), .done)) ∨
    (bytes.length ≤ s.cfg.progEnd - 0x200 ∧ ¬ spanExists 0x200 bytes.length ∧
      hostLoad bytes s = .fault .outsideMemory) := by
  by_cases h : s.cfg.progEnd - 0x200 < bytes.length
  · exact .inl ⟨h, hostLoad_of_too_large h⟩
  · rw [Nat.not_lt] at h
    by_cases hspan : spanExists 0x200 bytes.length
    · exact .inr (.inl ⟨h, hspan, hostLoad_of_span h hspan⟩)
    · exact .inr (.inr ⟨h, hspan, hostLoad_of_not_span h hspan⟩)

/-- Under R10's bounds an image that fits the program region lies inside memory. -/
theorem spanExists_of_fits (hcfg : s.cfg.wf) (h : bytes.length ≤ s.cfg.progEnd - 0x200) :
    spanExists 0x200 bytes.length := by
  obtain ⟨hlow, hend, -⟩ := hcfg
  exact .inr (by omega)

end

/-! ## What a fetch sees of stored bytes (R50) -/

/-- A fetch at a place both of whose bytes were stored. -/
theorem StoredAt.fetchWord {a k : Nat} {bs : List Byte} {s t : State} {p : Word} (h : StoredAt a bs s t)
    (hmem : a + bs.length ≤ 4096) (hk : k + 1 < bs.length) (hp : p.toNat = a + k) :
    fetchWord (t.setPc p) = some (wordOfBytes (bs.getD k 0) (bs.getD (k + 1) 0)) := by
  rw [fetchWord_of_le (by rw [setPc_pc]; omega), setPc_pc, hp, Nat.add_assoc]
  exact congrArg some (congrArg₂ wordOfBytes (h.stored k (by omega)) (h.stored (k + 1) hk))

/-! ## The obligations -/

/-- Settles O32: ADD I is one write of `I`, of a 16-bit sum. -/
theorem addToIndexWrapsAtSixteenBits : Obligations.AddToIndexWrapsAtSixteenBits := by
  refine fun s x => exec_effect_of_setIndex (exec_addIVx x s) ?_
  rw [indexSum, BitVec.toNat_add, BitVec.toNat_setWidth_of_le (by decide)]

/-- Settles O33: a store of the three digits, each of which fits a byte. -/
theorem bcdStoresThreeDigits : Obligations.BcdStoresThreeDigits := by
  intro s x
  constructor
  · rintro _ rfl ha
    obtain ⟨t, hexec, hstored, hpc⟩ := storeAtIndex_effect (bs := bcdDigits (s.reg x)) (encode (.ldBVx x)) ha
    have hlt := (s.reg x).isLt
    have hdigit (d : Nat) (hd : d ≤ (s.reg x).toNat) : (BitVec.ofNat 8 d).toNat = d := by
      rw [BitVec.toNat_ofNat, Nat.mod_eq_of_lt (by omega)]
    refine ⟨t, (exec_ldBVx x s).trans hexec, ?_, ?_, ?_, hstored.others, hpc, hstored.frame⟩
    · exact (congrArg _ (hstored.stored 0 (by decide : 0 < 3))).trans (hdigit _ (by omega))
    · exact (congrArg _ (hstored.stored 1 (by decide : 1 < 3))).trans (hdigit _ (by omega))
    · exact (congrArg _ (hstored.stored 2 (by decide : 2 < 3))).trans (hdigit _ (by omega))
  · intro ha
    rw [← encode_ldBVx, exec_ldBVx]
    exact storeAtIndex_endedBy _ (by decide : 3 ≠ 0) ha

/-- Settles O34: a store of the registers' list. -/
theorem storeWritesRegistersInOrder : Obligations.StoreWritesRegistersInOrder := by
  intro s x
  have hlen := regsUpTo_length s x
  rw [exec_ldMemVx]
  constructor
  · rintro _ rfl ha
    obtain ⟨t, hexec, hstored, hpc⟩ :=
      storeAtIndex_effect (s := s) (bs := s.regsUpTo x) (encode (.ldMemVx x)) (by omega)
    refine ⟨t, hexec, fun r hr => ?_, fun c hc => hstored.others c (by omega), hpc, hstored.frame⟩
    have hlt : r.val < x.val + 1 := Nat.lt_succ_of_le hr
    exact (hstored.stored r.val (by omega)).trans (regsUpTo_getD s x r.val hlt)
  · intro ha
    rw [← encode_ldMemVx]
    exact storeAtIndex_endedBy _ (by omega) (by omega)

/-- Settles O35: both paths of the load. -/
theorem loadReadsRegistersInOrder : Obligations.LoadReadsRegistersInOrder := by
  refine fun s x => ⟨exec_ldVxMem_effect x, fun h => ?_⟩
  rw [← encode_ldVxMem]
  exact exec_ldVxMem_endedBy x h

/-- Settles O36: the store leaves `I`, so the load reads the stored bytes (O34, O35). -/
theorem loadAfterStoreRestoresRegisters : Obligations.LoadAfterStoreRestoresRegisters := by
  intro s t u x ha hstore hmem hcfg hI
  obtain ⟨t', hstore', hbytes, -, -, hframe⟩ := (storeWritesRegistersInOrder s x).1 _ rfl ha
  obtain rfl := Host.Outcome.next.inj (hstore'.symm.trans hstore)
  have haddr : dataAddress u = dataAddress s := by rw [dataAddress, hI, hframe.index (by simp), dataAddress]
  obtain ⟨v, hload, hlow, hhigh, -, -⟩ := exec_ldVxMem_effect x (s := u) (by rwa [haddr])
  refine ⟨v, hload, fun r hr => ?_, hhigh⟩
  rw [hlow r hr, haddr, byteAt_congr hmem hcfg, hbytes r hr]

/-- Settles O37: each of the three is a store of a list of bytes, and a fetch reads two neighbours of it. -/
theorem fetchSeesTheStore : Obligations.FetchSeesTheStore := by
  refine ⟨fun s t x k hk p ha hexec hp => ?_, fun s t x p ha hexec => ?_, fun s t bytes k p hload hk hp => ?_⟩
  · have hlen := regsUpTo_length s x
    obtain ⟨t', hexec', hstored, -⟩ := storeAtIndex_effect (s := s) (bs := s.regsUpTo x) (encode (.ldMemVx x)) (by omega)
    obtain rfl := Host.Outcome.next.inj (hexec'.symm.trans hexec)
    rw [hstored.fetchWord (k := k) (by omega) (by omega) hp, regsUpTo_getD s x k (by omega),
      regsUpTo_getD s x (k + 1) (by omega)]
  · obtain ⟨t', hexec', hstored, -⟩ := storeAtIndex_effect (bs := bcdDigits (s.reg x)) (encode (.ldBVx x)) ha
    obtain rfl := Host.Outcome.next.inj (hexec'.symm.trans hexec)
    exact ⟨fun hp => hstored.fetchWord (k := 0) ha (by decide : 0 + 1 < 3) hp,
      fun hp => hstored.fetchWord (k := 1) ha (by decide : 1 + 1 < 3) hp⟩
  · change hostLoad bytes s = _ at hload
    obtain ⟨-, hcase⟩ | ⟨-, hspan, hcase⟩ | ⟨-, -, hcase⟩ := hostLoad_cases bytes s <;> rw [hcase] at hload
    · cases hload
    · cases hload
      exact (setMem_storedAt 0x200 bytes s).fetchWord (hspan.resolve_left (by omega)) hk hp
    · cases hload

/-- Settles O56: an image that fits is stored at 0x200; one that does not is answered. -/
theorem loadCopiesTheImageOrIsTooLarge : Obligations.LoadCopiesTheImageOrIsTooLarge := by
  refine fun s bytes hcfg => ⟨fun h => ?_, hostLoad_of_too_large⟩
  have hstored := setMem_storedAt 0x200 bytes s
  exact ⟨_, hostLoad_of_span h (spanExists_of_fits hcfg h), hstored.stored, hstored.others, rfl, hstored.frame⟩

end Sys2Proof.Machine
end

section
/-!
PROOFS. Drawing (spec/44_display.md R101): a draw flips the set pixels of its sprite, each once, so a pixel of the display
is the pixel before XOR the sprite's, and a collision is a set pixel the sprite covers.
-/

namespace Sys2Proof.Machine

/-! ## A draw as a list of flips -/

/-- The pixels of the display (column, row) that the set bits of the sprite row `b` fall on, drawn in display row `row`. -/
def rowPixels (X row : Nat) (b : Byte) : List (Nat × Nat) :=
  ((List.range 8).filter (spriteBit b)).map fun w => ((X + w) % 64, row)

/-- The pixels the set bits of a sprite fall on, its first row being row number `r` of the draw. -/
def spritePixels (X Y : Nat) : List Byte → Nat → List (Nat × Nat)
  | [], _ => []
  | b :: bs, r => rowPixels X ((Y + r) % 32) b ++ spritePixels X Y bs (r + 1)

/-- Flip the pixels `ps` one after another. -/
def Canvas.flipAll (ps : List (Nat × Nat)) (c : Canvas) : Canvas := ps.foldl (fun c p => c.flip p.1 p.2) c

theorem drawRow_eq_flipAll (X row : Nat) (b : Byte) (c : Canvas) :
    c.drawRow X row b = c.flipAll (rowPixels X row b) := by
  rw [Canvas.drawRow, Canvas.flipAll, rowPixels, List.foldl_map, List.foldl_filter]

theorem drawRows_eq_flipAll (X Y : Nat) (bs : List Byte) (r : Nat) (c : Canvas) :
    Canvas.drawRows X Y bs r c = c.flipAll (spritePixels X Y bs r) := by
  induction bs generalizing r c with
  | nil => rfl
  | cons b bs ih => rw [Canvas.drawRows, ih, drawRow_eq_flipAll, spritePixels, Canvas.flipAll, Canvas.flipAll,
      Canvas.flipAll, List.foldl_append]

/-! ## Which pixels, and that none comes twice -/

section
variable {X Y : Nat} {b : Byte} {bs : List Byte} {r : Nat} {col row : Nat}

theorem mem_rowPixels {row' : Nat} : (col, row) ∈ rowPixels X row' b ↔
    row' = row ∧ ∃ w, w < 8 ∧ (X + w) % 64 = col ∧ spriteBit b w = true := by
  simp only [rowPixels, List.mem_map, List.mem_filter, List.mem_range, Prod.mk.injEq]
  constructor
  · rintro ⟨w, ⟨hw, hbit⟩, hcol, hrow⟩
    exact ⟨hrow, w, hw, hcol, hbit⟩
  · rintro ⟨hrow, w, hw, hcol, hbit⟩
    exact ⟨w, ⟨hw, hbit⟩, hcol, hrow⟩

theorem mem_spritePixels : (col, row) ∈ spritePixels X Y bs r ↔
    ∃ k w, k < bs.length ∧ w < 8 ∧ (Y + (r + k)) % 32 = row ∧ (X + w) % 64 = col ∧
      spriteBit (bs.getD k 0) w = true := by
  induction bs generalizing r with
  | nil => simp [spritePixels]
  | cons b bs ih =>
    rw [spritePixels, List.mem_append, mem_rowPixels, ih]
    constructor
    · rintro (⟨hrow, w, hw, hcol, hbit⟩ | ⟨k, w, hk, hw, hrow, hcol, hbit⟩)
      · exact ⟨0, w, Nat.succ_pos _, hw, hrow, hcol, hbit⟩
      · exact ⟨k + 1, w, Nat.succ_lt_succ hk, hw, by omega, hcol, hbit⟩
    · rintro ⟨k, w, hk, hw, hrow, hcol, hbit⟩
      cases k with
      | zero => exact .inl ⟨hrow, w, hw, hcol, hbit⟩
      | succ k =>
        exact .inr ⟨k, w, Nat.lt_of_succ_lt_succ hk, hw, by omega, hcol, hbit⟩

/-- The list of a whole sprite's pixels is the closed form the claims are written in. -/
theorem spriteCovers_iff : SpriteCovers X Y bs col row ↔ (col, row) ∈ spritePixels X Y bs 0 := by
  simp only [SpriteCovers, mem_spritePixels, Nat.zero_add]

theorem spritePixels_bounds {p : Nat × Nat} (hp : p ∈ spritePixels X Y bs r) : p.1 < 64 ∧ p.2 < 32 := by
  obtain ⟨k, w, -, -, hrow, hcol, -⟩ := mem_spritePixels.mp hp
  omega

/-- Eight neighbouring columns are different, wrapping included. -/
theorem nodup_rowPixels : (rowPixels X row b).Nodup := by
  refine (List.nodup_range.filter _).map_on fun w hw w' hw' h => ?_
  have hlt := List.mem_range.mp (List.mem_of_mem_filter hw)
  have hlt' := List.mem_range.mp (List.mem_of_mem_filter hw')
  have hcol := congrArg Prod.fst h
  simp only at hcol
  omega

/-- At most 32 rows in a row are different, wrapping included. -/
theorem nodup_spritePixels (hlen : bs.length ≤ 32) : (spritePixels X Y bs r).Nodup := by
  induction bs generalizing r with
  | nil => exact List.nodup_nil
  | cons b bs ih =>
    rw [List.length_cons] at hlen
    refine nodup_rowPixels.append (ih (by omega)) fun p hp hp' => ?_
    obtain ⟨hrow, -⟩ := mem_rowPixels.mp hp
    obtain ⟨k, w, hk, -, hrow', -⟩ := mem_spritePixels.mp hp'
    omega

end

/-! ## What a list of flips does -/

section
variable {ps : List (Nat × Nat)} {c : Canvas}

theorem Canvas.flipAll_cons (p : Nat × Nat) (ps : List (Nat × Nat)) (c : Canvas) :
    c.flipAll (p :: ps) = (c.flip p.1 p.2).flipAll ps := rfl

/-- Flips of different pixels: each listed pixel is toggled, every other one is as before. -/
theorem Canvas.pix_flipAll (hnodup : ps.Nodup) (hcols : ∀ p ∈ ps, p.1 < 64) {col row : Nat} (hrow : row < 32) :
    (c.flipAll ps).pix col row = (c.pix col row ^^ decide ((col, row) ∈ ps)) := by
  induction ps generalizing c with
  | nil => simp [Canvas.flipAll]
  | cons p ps ih =>
    obtain ⟨hp, hnodup'⟩ := List.nodup_cons.mp hnodup
    rw [Canvas.flipAll_cons, ih hnodup' fun q hq => hcols q (List.mem_cons_of_mem p hq),
      Canvas.pix_flip _ _ _ _ _ (hcols p List.mem_cons_self) hrow]
    by_cases heq : (col, row) = p
    · subst heq
      simp [hp]
    · have hne : ¬ (col = p.1 ∧ row = p.2) := fun h => heq (Prod.ext h.1 h.2)
      simp [heq, hne, ← Bool.decide_and]

/-- Flips of different pixels collide exactly where a listed pixel was set before all of them. -/
theorem Canvas.collision_flipAll (hnodup : ps.Nodup) (hbounds : ∀ p ∈ ps, p.1 < 64 ∧ p.2 < 32) :
    (c.flipAll ps).collision = true ↔ c.collision = true ∨ ∃ p ∈ ps, c.pix p.1 p.2 = true := by
  induction ps generalizing c with
  | nil => simp [Canvas.flipAll]
  | cons p ps ih =>
    obtain ⟨hp, hnodup'⟩ := List.nodup_cons.mp hnodup
    have hbounds' : ∀ q ∈ ps, q.1 < 64 ∧ q.2 < 32 := fun q hq => hbounds q (List.mem_cons_of_mem p hq)
    have hother : ∀ q ∈ ps, (c.flip p.1 p.2).pix q.1 q.2 = c.pix q.1 q.2 := by
      intro q hq
      have hne : ¬ (q.1 = p.1 ∧ q.2 = p.2) := fun h => hp (Prod.ext h.1 h.2 ▸ hq)
      rw [Canvas.pix_flip _ _ _ _ _ (hbounds p List.mem_cons_self).1 (hbounds' q hq).2, ← Bool.decide_and,
        decide_eq_false hne, Bool.xor_false]
    rw [Canvas.flipAll_cons, ih hnodup' hbounds', Canvas.flip_collision, Bool.or_eq_true, or_assoc,
      List.exists_mem_cons_iff]
    exact or_congr_right (or_congr_right (exists_congr fun q => and_congr_right fun hq => by rw [hother q hq]))

end

/-! ## DRW -/

section
variable {X Y : Nat} {rows : List Byte} {s t : State} {x y : Reg} {n : RowCount}

/-- All that drawing the sprite `rows` at the origin (X, Y) does, `pc` past the draw. -/
structure Drawn (X Y : Nat) (rows : List Byte) (s t : State) : Prop where
  pix : ∀ col row, row < 32 → t.pix col row = (s.pix col row ^^ decide ((col, row) ∈ spritePixels X Y rows 0))
  flag : t.reg regVF = flagByte (decide (∃ p ∈ spritePixels X Y rows 0, s.pix p.1 p.2 = true))
  dirty : t.dirty = true
  pc : t.pc = s.pc + 2
  frame : Frame [.display, .dirty, .reg regVF] s t

/-- The sprite a draw of `n` rows reads (R101). -/
def spriteAt (s : State) (n : RowCount) : List Byte := Memory.readBytes s.cfg.font s.mem (dataAddress s) n.val

theorem exec_drw_of_not_span (h : ¬ spanExists (dataAddress s) n.val) :
    exec (.drw x y n) s = .next (raiseError .memoryOutOfRange (encode (.drw x y n)) s) := by
  rw [exec, execDrw, memRead, if_neg h]

theorem exec_drw_of_span (h : spanExists (dataAddress s) n.val) {c : Canvas}
    (hc : c = drawSprite (originCol (s.reg x)) (originRow (s.reg y)) (spriteAt s n) s) :
    exec (.drw x y n) s = .next ((s.setDisplay c.disp).setFlag (flagByte c.collision)).advance := by
  subst hc
  rw [exec, execDrw, memRead, if_pos h, spriteAt]

/-- A draw of a sprite inside memory. -/
theorem exec_drw_drawn (h : spanExists (dataAddress s) n.val) :
    ∃ t, exec (.drw x y n) s = .next t ∧ Drawn (originCol (s.reg x)) (originRow (s.reg y)) (spriteAt s n) s t := by
  refine ⟨_, exec_drw_of_span h rfl, ?_, ?_, rfl, rfl, ((frame_setDisplay s _).trans (frame_setFlag _ _)).advance⟩
  all_goals
    have hlen : (spriteAt s n).length ≤ 32 := by rw [spriteAt, readBytes_length]; omega
    rw [drawSprite, drawRows_eq_flipAll]
  · intro col row hrow
    exact Canvas.pix_flipAll (nodup_spritePixels hlen) (fun p hp => (spritePixels_bounds hp).1) hrow
  · refine (reg_setFlag _ regVF _).trans (congrArg flagByte ?_)
    rw [Bool.eq_iff_iff, decide_eq_true_eq,
      Canvas.collision_flipAll (nodup_spritePixels hlen) (fun p hp => spritePixels_bounds hp)]
    exact or_iff_right Bool.false_ne_true

/-- A draw reads the same sprite again at the same place where VF is no coordinate: it leaves `I` and memory (D13). -/
theorem exec_drw_drawn_again (hx : x ≠ regVF) (hy : y ≠ regVF) (h : spanExists (dataAddress s) n.val)
    (hdrawn : Drawn X Y rows s t) :
    ∃ u, exec (.drw x y n) t = .next u ∧ Drawn (originCol (s.reg x)) (originRow (s.reg y)) (spriteAt s n) t u := by
  have haddr : dataAddress t = dataAddress s := congrArg BitVec.toNat (hdrawn.frame.index (by simp))
  have hsprite : spriteAt t n = spriteAt s n := by
    rw [spriteAt, spriteAt, haddr]
    exact List.map_congr_left fun j _ => hdrawn.frame.memory (by simp) _
  rw [← hdrawn.frame.reg x (by simpa using hx), ← hdrawn.frame.reg y (by simpa using hy), ← hsprite]
  exact exec_drw_drawn (haddr ▸ h)

/-- The sprite read is the list whose entries are the bytes at `dataAddress`. -/
theorem spriteAt_eq (hlen : rows.length = n.val)
    (hrows : ∀ r, r < n.val → rows.getD r 0 = s.byteAt (dataAddress s + r)) :
    spriteAt s n = rows := by
  have hlen' : (spriteAt s n).length = n.val := readBytes_length ..
  refine List.ext_getElem (hlen'.trans hlen.symm) fun r hr hr' => ?_
  rw [← List.getD_eq_getElem _ 0 hr, ← List.getD_eq_getElem _ 0 hr', hrows r (hlen' ▸ hr)]
  exact readBytes_getD _ _ _ _ _ (hlen' ▸ hr)

theorem encode_drw :
    encode (.drw x y n) = BitVec.ofNat 16 (0xD000 + 256 * x.val + 16 * y.val + n.val) :=
  eq_ofNat_of_toNat_eq <| (packXYN_toNat _ x y _).trans <| by
    change 0xD * 4096 + x.val * 256 + y.val * 16 + n.val = _
    omega

/-- A full row covers the eight pixels from its origin on, wrapping included. -/
theorem mem_spritePixels_fullRow {col row : Nat} :
    (col, row) ∈ spritePixels X Y [0xFF] 0 ↔ Y % 32 = row ∧ ∃ w, w < 8 ∧ (X + w) % 64 = col := by
  have hbit : ∀ w, w < 8 → spriteBit 0xFF w = true := by decide
  rw [spritePixels, spritePixels, List.append_nil, mem_rowPixels, Nat.add_zero]
  exact and_congr_right fun _ => exists_congr fun w =>
    ⟨fun ⟨hw, hcol, _⟩ => ⟨hw, hcol⟩, fun ⟨hw, hcol⟩ => ⟨hw, hcol, hbit w hw⟩⟩

end

/-! ## The obligations -/

/-- Settles O39: the pixels the sprite covers are the ones the draw flips. -/
theorem drawXorsTheSpriteOntoTheDisplay : Obligations.DrawXorsTheSpriteOntoTheDisplay := by
  intro s x y n rows hspan hlen hrows
  obtain ⟨t, hexec, hdrawn⟩ := exec_drw_drawn (x := x) (y := y) hspan
  rw [spriteAt_eq hlen hrows, originCol, originRow] at hdrawn
  obtain ⟨hpix, hflag, hdirty, hpc, hframe⟩ := hdrawn
  refine ⟨t, hexec, fun col row _ hrow => ⟨fun hcov => ?_, fun hcov => ?_⟩, fun hcol => ?_, fun hcol => ?_, hdirty, hpc,
    hframe⟩
  · rw [hpix col row hrow, decide_eq_true (spriteCovers_iff.mp hcov), Bool.xor_true]
  · rw [hpix col row hrow, decide_eq_false (mt spriteCovers_iff.mpr hcov), Bool.xor_false]
  · obtain ⟨col, row, -, -, hset, hcov⟩ := hcol
    exact hflag.trans (congrArg flagByte (decide_eq_true ⟨_, spriteCovers_iff.mp hcov, hset⟩))
  · refine hflag.trans (congrArg flagByte (decide_eq_false ?_))
    rintro ⟨p, hp, hset⟩
    obtain ⟨hcol', hrow'⟩ := spritePixels_bounds hp
    exact hcol ⟨p.1, p.2, hcol', hrow', hset, spriteCovers_iff.mpr hp⟩

/-- Settles O40: the sprite is read before anything is drawn. -/
theorem drawOutsideMemoryRaises : Obligations.DrawOutsideMemoryRaises := by
  intro s x y n hn h
  rw [← encode_drw]
  exact ⟨_, exec_drw_of_not_span fun hspan => hspan.elim hn (by omega), raiseError_endedBy ..⟩

/-- Settles O41: the second draw flips the very pixels the first one did. -/
theorem drawingTwiceRestoresTheDisplay : Obligations.DrawingTwiceRestoresTheDisplay := by
  intro s t u x y n hx hy hspan hfirst hsecond col row _ hrow
  obtain ⟨t', hfirst', hdrawn⟩ := exec_drw_drawn (x := x) (y := y) hspan
  obtain rfl := Host.Outcome.next.inj (hfirst'.symm.trans hfirst)
  obtain ⟨u', hsecond', hdrawn'⟩ := exec_drw_drawn_again hx hy hspan hdrawn
  obtain rfl := Host.Outcome.next.inj (hsecond'.symm.trans hsecond)
  rw [hdrawn'.pix col row hrow, hdrawn.pix col row hrow, Bool.xor_assoc, Bool.xor_self, Bool.xor_false]

/-- Settles O42: the first draw finds the eight pixels clear and sets them, the second finds them set and clears them. -/
theorem fullRowDrawnTwiceCollides : Obligations.FullRowDrawnTwiceCollides := by
  intro s t u x y hx hy hspan hbyte hempty hfirst hsecond
  have hsprite : spriteAt s 1 = [0xFF] := spriteAt_eq rfl fun r hr => by
    obtain rfl : r = 0 := Nat.lt_one_iff.mp hr
    exact hbyte.symm
  obtain ⟨t', hfirst', hdrawn⟩ := exec_drw_drawn (x := x) (y := y) (n := 1) (.inr hspan)
  obtain rfl := Host.Outcome.next.inj (hfirst'.symm.trans hfirst)
  obtain ⟨u', hsecond', hdrawn'⟩ := exec_drw_drawn_again (n := 1) hx hy (.inr hspan) hdrawn
  obtain rfl := Host.Outcome.next.inj (hsecond'.symm.trans hsecond)
  rw [hsprite] at hdrawn hdrawn'
  have hcovered (w : Nat) (hw : w < 8) : (((s.reg x).toNat + w) % 64, (s.reg y).toNat % 32) ∈
      spritePixels (originCol (s.reg x)) (originRow (s.reg y)) [0xFF] 0 :=
    mem_spritePixels_fullRow.mpr ⟨Nat.mod_mod _ 32, w, hw, Nat.mod_add_mod ..⟩
  have hset (w : Nat) (hw : w < 8) : t'.pix (((s.reg x).toNat + w) % 64) ((s.reg y).toNat % 32) = true := by
    rw [hdrawn.pix _ _ (Nat.mod_lt _ (by decide)), hempty w hw, decide_eq_true (hcovered w hw), Bool.false_xor]
  refine ⟨?_, hset, ?_, fun w hw => ?_⟩
  · refine hdrawn.flag.trans (congrArg flagByte (decide_eq_false ?_))
    rintro ⟨⟨col, row⟩, hp, hpix⟩
    obtain ⟨rfl, w, hw, rfl⟩ := mem_spritePixels_fullRow.mp hp
    rw [originCol, originRow, Nat.mod_mod, Nat.mod_add_mod, hempty w hw] at hpix
    cases hpix
  · exact hdrawn'.flag.trans (congrArg flagByte (decide_eq_true ⟨_, hcovered 0 (by decide), hset 0 (by decide)⟩))
  · rw [hdrawn'.pix _ _ (Nat.mod_lt _ (by decide)), hset w hw, decide_eq_true (hcovered w hw), Bool.xor_self]

end Sys2Proof.Machine
end

section
/-!
PROOFS. Keys and timers on the instruction side (spec/45_keys_timers.md), the tick and its beep, and the host's operations
and queries (spec/60_exceptions.md, spec/70_reset_and_hazards.md).
-/

namespace Sys2Proof.Machine

/-! ## The instructions -/

section
variable (x : Reg) (s : State)

theorem exec_skp : exec (.skp x) s = .next (s.skipIf (pressed (s.reg x) s)) := rfl

theorem exec_sknp : exec (.sknp x) s = .next (s.skipIf (!pressed (s.reg x) s)) := rfl

theorem exec_ldVxK : exec (.ldVxK x) s = .next (s.setWait (some x)) := rfl

theorem exec_ldStVx : exec (.ldStVx x) s = .next (s.setSound (s.reg x)).advance := rfl

/-- A code of 16 or more names no key (R102, D14). -/
theorem pressed_iff (v : Byte) : pressed v s = true ↔ v.toNat < 16 ∧ s.keys.getLsbD v.toNat = true := by
  rw [pressed, Bool.and_eq_true, decide_eq_true_eq, Nat.lt_succ_iff]

end

/-! ## One tick (R121, R122) -/

section
variable {s : State}

/-- A tick emits Beep exactly when ST goes from 1 to 0 and a hook is registered. -/
theorem timerTick_out (s : State) :
    (timerTick s).out = s.out ++ (if s.ST.toNat = 1 ∧ s.cfg.beepHook = true then [.beep] else []) := by
  have hone : s.ST = 1 ↔ s.ST.toNat = 1 := BitVec.toNat_inj.symm
  obtain ⟨hST, hhook, htick⟩ | ⟨hno, htick⟩ := timerTick_cases s
  · rw [htick, if_pos ⟨hone.mp hST, hhook⟩]
    rfl
  · rw [htick, if_neg (mt (And.imp_left hone.mpr) hno), List.append_nil]
    rfl

theorem frame_timerTick (s : State) : Frame [.delay, .sound, .out] s (timerTick s) := by
  have hcount := (frame_setDelay s (countDown s.DT)).trans (frame_setSound _ (countDown s.ST))
  obtain ⟨-, -, htick⟩ | ⟨-, htick⟩ := timerTick_cases s <;> rw [htick]
  · exact hcount.trans (frame_emit _ .beep)
  · exact hcount.mono (by simp)

theorem timerTick_pc (s : State) : (timerTick s).pc = s.pc := by
  obtain ⟨-, -, htick⟩ | ⟨-, htick⟩ := timerTick_cases s <;> rw [htick] <;> rfl

/-- `k` ticks emit one Beep where ST is among their first `k` values above 0, by induction on `k`: the first tick beeps
at ST = 1, and from there on ST stays at 0. -/
theorem takeTurns_ticks_out (k : Nat) (hon : s.timersOn = true) :
    ∃ t, takeTurns (List.replicate k .tick) s = .next t ∧
      t.out = s.out ++ (if 0 < s.ST.toNat ∧ s.ST.toNat ≤ k ∧ s.cfg.beepHook = true then [.beep] else []) := by
  induction k generalizing s with
  | zero => exact ⟨s, rfl, by rw [if_neg (by omega), List.append_nil]⟩
  | succ k ih =>
    obtain ⟨t, hturns, hout⟩ := ih (s := timerTick s) ((timerTick_timersOn s).trans hon)
    refine ⟨t, ?_, ?_⟩
    · rw [List.replicate_succ, takeTurns_cons_of_next _ (agentStep_tick_of_timersOn hon), hturns]
    · rw [hout, timerTick_out, timerTick_ST_toNat, (frame_timerTick s).cfg, List.append_assoc]
      by_cases hone : s.ST.toNat = 1
      · simp [hone]
      · have hiff : (0 < s.ST.toNat - 1 ∧ s.ST.toNat - 1 ≤ k ∧ s.cfg.beepHook = true) ↔
            (0 < s.ST.toNat ∧ s.ST.toNat ≤ k + 1 ∧ s.cfg.beepHook = true) :=
          ⟨fun ⟨_, hle, hhook⟩ => ⟨by omega, by omega, hhook⟩, fun ⟨_, hle, hhook⟩ => ⟨by omega, by omega, hhook⟩⟩
        rw [if_neg fun h => hone h.1, List.nil_append, if_congr hiff rfl rfl]

end

/-! ## The host's operations -/

section
variable {s : State} {k : Key} {r : Reg} {code : Nat}

theorem hostOp_keydown (k : Key) (s : State) : hostOp (.keydown k.val) s = .next (hostKeydown k s, .done) :=
  dif_pos k.isLt

theorem hostKeydown_of_no_wait (h : s.wait = none) : hostKeydown k s = s.pressKey k := by
  rw [hostKeydown, h]

theorem hostKeydown_of_wait (h : s.wait = some r) :
    hostKeydown k s = ((s.pressKey k).setReg r (BitVec.ofNat 8 k.val)).advance.setWait none := by
  rw [hostKeydown, h]

theorem frame_pressKey (k : Key) (s : State) : Frame [.keys] s (s.pressKey k) := frame_setKeys s _

/-- All of a keydown's state but the key bitmap and, where it resolves a wait, the register, `pc` and the wait. -/
theorem frame_hostKeydown_of_wait (h : s.wait = some r) : Frame [.keys, .reg r, .wait] s (hostKeydown k s) := by
  rw [hostKeydown_of_wait h]
  exact (((frame_pressKey k s).trans (frame_setReg _ r _)).advance.trans (frame_setWait _ none)).mono (by simp)

theorem hostOp_keydown_of_out_of_range (h : 16 ≤ code) : hostOp (.keydown code) s = .refused (.keyCodeOutOfRange code) :=
  dif_neg (Nat.not_lt.mpr h)

theorem hostOp_keyup_of_out_of_range (h : 16 ≤ code) : hostOp (.keyup code) s = .refused (.keyCodeOutOfRange code) :=
  dif_neg (Nat.not_lt.mpr h)

theorem hostRun_of_running (h : s.running = true) : hostRun s = s := if_pos h

theorem hostRun_of_not_running (h : s.running = false) :
    hostRun s = { s with running := true, timersOn := true, endReason := none } := if_neg (by simp [h])

theorem hostStop_of_running (h : s.running = true) : hostStop s =
    { s with running := false, timersOn := false, wait := none, endReason := some .stopRequested } := if_pos h

theorem hostStop_of_not_running (h : s.running = false) : hostStop s = { s with timersOn := false } :=
  if_neg (by simp [h])

theorem frame_hostReset (s : State) : Frame [.wait] s (hostReset s) :=
  ((Frame.refl s).setPc 0x200).trans (frame_setWait _ none)

theorem frame_hostRun (s : State) : Frame [.running, .timersOn, .endReason] s (hostRun s) := by
  cases h : s.running with
  | true => rw [hostRun_of_running h]; exact (Frame.refl s).mono (by simp)
  | false =>
    rw [hostRun_of_not_running h]
    constructor
    case running | timersOn | endReason => exact fun hnot => absurd (by simp) hnot
    all_goals (intros; rfl)

theorem frame_hostStop_of_running (h : s.running = true) :
    Frame [.running, .timersOn, .wait, .endReason] s (hostStop s) := by
  rw [hostStop_of_running h]
  constructor
  case running | timersOn | wait | endReason => exact fun hnot => absurd (by simp) hnot
  all_goals (intros; rfl)

theorem frame_hostStop_of_not_running (h : s.running = false) : Frame [.timersOn] s (hostStop s) := by
  rw [hostStop_of_not_running h]
  constructor
  case timersOn => exact fun hnot => absurd (by simp) hnot
  all_goals (intros; rfl)

theorem hostQuery_v {i : Nat} (h : i < 16) : hostQuery (.v i) s = .next (s, .byte (s.reg ⟨i, h⟩)) := dif_pos h

theorem hostQuery_v_of_out_of_range {i : Nat} (h : 16 ≤ i) :
    hostQuery (.v i) s = .refused (.registerIndexOutOfRange i) := dif_neg (Nat.not_lt.mpr h)

theorem hostQuery_memory {a n : Nat} (h : a + n ≤ 4096) :
    hostQuery (.memory a n) s = .next (s, .bytes (Memory.readBytes s.cfg.font s.mem a n)) := if_pos h

theorem hostQuery_memory_of_out_of_range {a n : Nat} (h : 4096 < a + n) :
    hostQuery (.memory a n) s = .refused (.memoryRangeOutOfBounds a n) := if_neg (Nat.not_le.mpr h)

theorem frame_clearDirty (s : State) : Frame [.dirty] s { s with dirty := false } := by
  constructor
  case dirty => exact fun hnot => absurd (by simp) hnot
  all_goals (intros; rfl)

end

/-! ## The obligations -/

/-- Settles O43: each is one skip, of the key's bit. -/
theorem keySkipsTestTheBitmap : Obligations.KeySkipsTestTheBitmap := by
  intro s x
  refine ⟨exec_effect_of_skipIf (exec_skp x s) (pressed_iff s _), exec_effect_of_skipIf_not (exec_sknp x s) ?_⟩
  rw [← pressed_iff, Bool.not_eq_true', Bool.not_eq_true]

/-- Settles O45: one write of ST, outside whose frame the output lies. -/
theorem soundTimerWriteIsSilent : Obligations.SoundTimerWriteIsSilent :=
  fun s x => ⟨_, exec_ldStVx x s, rfl, rfl, (frame_setSound s _).advance⟩

/-- Settles O46: one write of the wait. -/
theorem keyWaitStarts : Obligations.KeyWaitStarts :=
  fun s x => ⟨_, exec_ldVxK x s, rfl, rfl, frame_setWait s _⟩

/-- Settles O47: by whether a wait is pending; the bit is pressed in both cases. -/
theorem keydownSetsTheBitAndResolvesTheWait : Obligations.KeydownSetsTheBitAndResolvesTheWait := by
  refine fun s k => ⟨fun hwait => ⟨_, hostOp_keydown k s, ?_⟩, fun r hwait => ⟨_, hostOp_keydown k s, ?_⟩⟩
  · rw [hostKeydown_of_no_wait hwait]
    exact ⟨pressKey_bit s k, rfl, frame_pressKey k s⟩
  · have hframe := frame_hostKeydown_of_wait (k := k) hwait
    rw [hostKeydown_of_wait hwait] at hframe ⊢
    refine ⟨pressKey_bit s k, ?_, rfl, rfl, hframe⟩
    refine (congrArg BitVec.toNat (reg_setReg_self (s.pressKey k) r _)).trans ?_
    rw [BitVec.toNat_ofNat, Nat.mod_eq_of_lt (by omega)]

/-- Settles O50: one `timerTick`. -/
theorem tickCountsBothTimersDown : Obligations.TickCountsBothTimersDown :=
  fun s hon => ⟨timerTick s, agentStep_tick_of_timersOn hon, timerTick_DT_toNat s, timerTick_ST_toNat s, timerTick_out s,
    timerTick_pc s, frame_timerTick s⟩

/-- Settles O52: by induction on the ticks (`takeTurns_ticks_out`). -/
theorem beepFiresOncePerCountdown : Obligations.BeepFiresOncePerCountdown :=
  fun _ k hon => takeTurns_ticks_out k hon

/-- Settles O53: by whether a run is in progress. -/
theorem runStartsBothSchedulers : Obligations.RunStartsBothSchedulers := by
  refine fun s => ⟨fun hrun => ⟨hostRun s, rfl, ?_⟩, fun hrun => ?_⟩
  · have hframe := frame_hostRun s
    rw [hostRun_of_not_running hrun] at hframe ⊢
    exact ⟨rfl, rfl, rfl, rfl, hframe⟩
  · rw [hostOp, hostRun_of_running hrun]

/-- Settles O54: by whether a run is in progress. -/
theorem stopEndsTheRun : Obligations.StopEndsTheRun := by
  refine fun s => ⟨fun hrun => ⟨hostStop s, rfl, ?_⟩, fun hrun => ⟨hostStop s, rfl, ?_⟩⟩
  · have hframe := frame_hostStop_of_running hrun
    rw [hostStop_of_running hrun] at hframe ⊢
    exact ⟨rfl, rfl, rfl, rfl, rfl, hframe⟩
  · have hframe := frame_hostStop_of_not_running hrun
    rw [hostStop_of_not_running hrun] at hframe ⊢
    exact ⟨rfl, rfl, hframe⟩

/-- Settles O55: a write of `pc` and of the wait. -/
theorem hostResetRewindsOnly : Obligations.HostResetRewindsOnly :=
  fun s => ⟨hostReset s, rfl, rfl, rfl, frame_hostReset s⟩

/-- Settles O57: each query's answer; only `gfx` writes, the dirty flag. -/
theorem queriesAnswerAndChangeNothing : Obligations.QueriesAnswerAndChangeNothing := by
  refine fun s => ⟨fun i => hostQuery_v i.isLt, rfl, rfl, rfl, fun a n h => ?_, ?_, rfl, rfl, fun i h => ?_,
    fun a n h => ?_⟩
  · exact ⟨_, hostQuery_memory h, readBytes_length .., readBytes_getD _ _ a n⟩
  · exact ⟨_, _, rfl, rfl, rfl, frame_clearDirty s, fun _ _ _ _ => rfl⟩
  · exact ⟨_, hostQuery_v_of_out_of_range h⟩
  · exact ⟨_, hostQuery_memory_of_out_of_range h⟩

/-- Settles O58: the interface checks the code first. -/
theorem keyCodesOutOfRangeAreRefused : Obligations.KeyCodesOutOfRangeAreRefused :=
  fun _ _ h => ⟨⟨_, hostOp_keydown_of_out_of_range h⟩, ⟨_, hostOp_keyup_of_out_of_range h⟩⟩

/-- Settles O59: the host's turn is the operation, its reply kept. -/
theorem hostTurnRunsTheOperation : Obligations.HostTurnRunsTheOperation := by
  intro s t op r h
  rw [agentStep, hostStep, h]

end Sys2Proof.Machine
end

section
/-!
PROOFS. Every instruction (spec/10_state.md sections 2 to 9, spec/60_exceptions.md R111, R118): each completes and writes
only its own parts, and where it ends the run nothing else of it happens.
-/

namespace Sys2Proof.Machine

/-! ## What an execution can do -/

/-- The reasons an instruction that stands at `s.pc` can end the run for (R70, R110). -/
def EndsFor (i : Instr) (s : State) (reason : EndReason) : Prop :=
  reason = .halted ∨ reason = .error .memoryOutOfRange s.pc (encode i) ∨
    reason = .error .stackUnderflow s.pc (encode i) ∨ reason = .error .stackOverflow s.pc (encode i)

/-- The execution of `i` completes in a next state, writes only the parts `i` may write, and either leaves the run going
or ends it with no other effect. -/
def Executes (i : Instr) (s : State) : Prop :=
  ∃ t, exec i s = .next t ∧ Frame (mayWrite i) s t ∧
    (t.running = s.running ∨ ∃ reason, EndedBy reason s t ∧ EndsFor i s reason)

section
variable {i : Instr} {s t : State} {P : List Part}

/-- An execution that writes the parts `P`, the run not among them. -/
theorem Executes.of_frame (hexec : exec i s = .next t) (hframe : Frame P s t) (hP : ∀ p ∈ P, p ∈ mayWrite i)
    (hrun : Part.running ∉ P) : Executes i s :=
  ⟨t, hexec, hframe.mono hP, .inl (hframe.running hrun)⟩

/-- An execution that ends the run. -/
theorem Executes.of_endRun {reason : EndReason} (hexec : exec i s = .next (endRun reason s)) (hreason : EndsFor i s reason)
    (hP : ∀ p ∈ lifecycleParts, p ∈ mayWrite i) : Executes i s :=
  ⟨_, hexec, (frame_endRun s reason).mono hP, .inr ⟨reason, endRun_endedBy reason s, hreason⟩⟩

theorem running_not_mem_regsTo (x : Reg) : Part.running ∉ regsTo x := by
  simp [regsTo]

/-- A store at `I`, inside memory and outside it. -/
theorem Executes.of_store {bs : List Byte} (hexec : exec i s = storeAtIndex bs (encode i) s)
    (hP : mayWrite i = .memory :: lifecycleParts) : Executes i s := by
  by_cases h : spanExists (dataAddress s) bs.length
  · exact .of_frame (hexec.trans (storeAtIndex_of_span h)) (frame_setMem s _).advance (by simp [hP]) (by simp)
  · exact .of_endRun (hexec.trans (storeAtIndex_of_not_span h)) (.inr (.inl rfl))
      (by rw [hP]; exact fun _ => List.mem_cons_of_mem _)

end

/-- Every instruction's execution, by the meanings the instructions share. -/
theorem executes (i : Instr) (s : State) : Executes i s := by
  cases i with
  | cls => exact .of_frame (exec_cls s) (frame_setDisplay s _).advance (fun _ => id) (by simp)
  | ret =>
    cases h : s.stack with
    | nil => exact .of_endRun (exec_ret_nil h) (.inr (.inr (.inl rfl))) (by simp [mayWrite, lifecycleParts])
    | cons v rest => exact .of_frame (exec_ret_cons h) ((frame_setStack s rest).setPc v) (by simp [mayWrite]) (by simp)
  | halt => exact .of_endRun (exec_halt s) (.inl rfl) (fun _ => id)
  | call nnn =>
    by_cases h : s.stack.length < 16
    · exact .of_frame (exec_call_of_lt nnn h) ((frame_setStack s _).setPc _) (by simp [mayWrite]) (by simp)
    · exact .of_endRun (exec_call_of_full nnn (Nat.not_lt.mp h)) (.inr (.inr (.inr rfl)))
        (by simp [mayWrite, lifecycleParts])
  | jp | jpV0 | seVxKk | sneVxKk | seVxVy | sneVxVy | skp | sknp =>
    exact .of_frame rfl ((Frame.refl s).setPc _) (fun _ => id) (by simp)
  | ldVxKk x | addVxKk x | ldVxVy x | orVxVy x | andVxVy x | xorVxVy x | ldVxDt x =>
    exact .of_frame rfl (frame_setReg s x _).advance (fun _ => id) (by simp)
  | addVxVy x | subVxVy x | subnVxVy x =>
    exact .of_frame rfl ((frame_setReg s x _).trans (frame_setFlag _ _)).advance (fun _ => id) (by simp)
  | shrVx x | shlVx x =>
    exact .of_frame rfl ((frame_setFlag s _).trans (frame_setReg _ x _)).advance (by simp [mayWrite]) (by simp)
  | rnd x kk =>
    exact .of_frame (exec_rnd x kk s) ((frame_countDraw s).trans (frame_setReg _ x _)).advance (by simp [mayWrite])
      (by simp)
  | ldI | addIVx | ldFVx => exact .of_frame rfl (frame_setIndex s _).advance (fun _ => id) (by simp)
  | drw x y n =>
    by_cases h : spanExists (dataAddress s) n.val
    · obtain ⟨t, hexec, hdrawn⟩ := exec_drw_drawn (x := x) (y := y) h
      exact .of_frame hexec hdrawn.frame (by simp [mayWrite]) (by simp)
    · exact .of_endRun (exec_drw_of_not_span h) (.inr (.inl rfl)) (by simp [mayWrite, lifecycleParts])
  | ldVxK x => exact .of_frame (exec_ldVxK x s) (frame_setWait s _) (fun _ => id) (by simp)
  | ldDtVx x => exact .of_frame (exec_ldDtVx x s) (frame_setDelay s _).advance (fun _ => id) (by simp)
  | ldStVx x => exact .of_frame (exec_ldStVx x s) (frame_setSound s _).advance (fun _ => id) (by simp)
  | ldBVx x => exact .of_store (exec_ldBVx x s) rfl
  | ldMemVx x => exact .of_store (exec_ldMemVx x s) rfl
  | ldVxMem x =>
    by_cases h : spanExists (dataAddress s) (x.val + 1)
    · exact .of_frame (exec_ldVxMem_of_span x h) (frame_setRegs s _ x (readBytes_length ..)).advance
        (fun _ => List.mem_append_left _) (running_not_mem_regsTo x)
    · exact .of_endRun (exec_ldVxMem_of_not_span x h) (.inr (.inl rfl)) (fun _ => List.mem_append_right _)

/-! ## The obligations -/

/-- Settles O11: an execution that does not leave the run going ends it with no other effect. -/
theorem runEndingInstructionsChangeNothingElse : Obligations.RunEndingInstructionsChangeNothingElse := by
  intro i s t hexec hrun hend
  obtain ⟨t', hexec', -, hkeeps | hends⟩ := executes i s
  all_goals obtain rfl := Host.Outcome.next.inj (hexec'.symm.trans hexec)
  · rw [hkeeps, hrun] at hend
    cases hend
  · exact hends

/-- Settles O12: the frame of an execution, whether it ends the run or not. -/
theorem instructionsWriteOnlyTheirParts : Obligations.InstructionsWriteOnlyTheirParts := by
  intro i s
  obtain ⟨t, hexec, hframe, -⟩ := executes i s
  exact ⟨t, hexec, hframe⟩

end Sys2Proof.Machine
end

section
/-!
PROOFS. The invariant (spec/10_state.md sections 4 to 9): the named updates, every instruction, and the instruction agent's
turn keep it.
-/

namespace Sys2Proof.Machine

/-! ## The invariant through the named updates -/

section
variable {s t : State}

/-- The invariant speaks of eight fields only. -/
theorem Inv.congr (h : Inv s) (hcfg : t.cfg = s.cfg := by rfl) (hmem : t.mem = s.mem := by rfl)
    (hstack : t.stack = s.stack := by rfl) (hpc : t.pc = s.pc := by rfl) (hwait : t.wait = s.wait := by rfl)
    (hrunning : t.running = s.running := by rfl) (hreason : t.endReason = s.endReason := by rfl)
    (htimers : t.timersOn = s.timersOn := by rfl) : Inv t where
  cfg := hcfg ▸ h.cfg
  mem := by rw [hcfg, hmem]; exact h.mem
  stackLength := hstack ▸ h.stackLength
  stackEntries := hstack ▸ h.stackEntries
  pc := hpc ▸ h.pc
  waitRunning := by rw [hwait, hrunning]; exact h.waitRunning
  waitPc := by rw [hwait, hpc, hcfg]; exact h.waitPc
  noReason := by rw [hrunning, hreason]; exact h.noReason
  timers := by rw [hrunning, htimers]; exact h.timers

theorem Inv.setReg (h : Inv s) (r : Reg) (v : Byte) : Inv (s.setReg r v) := h.congr
theorem Inv.setFlag (h : Inv s) (v : Byte) : Inv (s.setFlag v) := h.congr
theorem Inv.setRegs (h : Inv s) (bs : List Byte) : Inv (s.setRegs bs) := h.congr
theorem Inv.setIndex (h : Inv s) (v : Word) : Inv (s.setIndex v) := h.congr
theorem Inv.setDelay (h : Inv s) (v : Byte) : Inv (s.setDelay v) := h.congr
theorem Inv.setSound (h : Inv s) (v : Byte) : Inv (s.setSound v) := h.congr
theorem Inv.setKeys (h : Inv s) (v : BitVec 16) : Inv (s.setKeys v) := h.congr
theorem Inv.setDisplay (h : Inv s) (d : Vector PixelRow 32) : Inv (s.setDisplay d) := h.congr
theorem Inv.emit (h : Inv s) (ev : Event) : Inv (s.emit ev) := h.congr
theorem Inv.countDraw (h : Inv s) : Inv s.countDraw := h.congr

/-- A store inside memory keeps the canonical form. -/
theorem Inv.setMem (h : Inv s) {a : Nat} {bs : List Byte} (hspan : spanExists a bs.length) :
    Inv (s.setMem (Memory.writeBytes s.cfg.font s.mem a bs)) :=
  { h with mem := wf_writeBytes s.cfg.font bs s.mem a hspan h.mem }

theorem Inv.setStack (h : Inv s) {l : List Word} (hlen : l.length ≤ 16) (hentries : ∀ v ∈ l, v.toNat ≤ 0x1000) :
    Inv (s.setStack l) :=
  { h with stackLength := hlen, stackEntries := hentries }

/-- `pc` may go to any place within its bound while no key wait is pending. -/
theorem Inv.setPc (h : Inv s) (hwait : s.wait = none) {v : Word} (hv : v.toNat ≤ 0x10FE) : Inv (s.setPc v) :=
  { h with
    pc := hv
    waitPc := fun hne => absurd hwait hne }

theorem Inv.setWait_none (h : Inv s) : Inv (s.setWait none) :=
  { h with
    waitRunning := fun hne => absurd rfl hne
    waitPc := fun hne => absurd rfl hne }

/-- The end of a run that is not in a key wait. -/
theorem Inv.endRun (h : Inv s) (hwait : s.wait = none) (reason : EndReason) : Inv (endRun reason s) :=
  { h with
    waitRunning := fun hne => absurd hwait hne
    noReason := fun hrun => absurd hrun Bool.false_ne_true
    timers := fun hrun => absurd hrun Bool.false_ne_true }

end

/-! ## The invariant through an instruction -/

section
variable {s : State}

/-- Where an instruction stands and a skip's distance on, `pc` is within its bound. -/
theorem pc_add_le (hcfg : s.cfg.wf) (hat : AtInstruction s) (d : Word) (hd : d.toNat ≤ 4) :
    (s.pc + d).toNat ≤ 0x1002 := by
  obtain ⟨-, hend, -⟩ := hcfg
  have hpc := hat.pc
  rw [BitVec.toNat_add]
  omega

/-- What follows an instruction's writes: `pc` goes on by `d`. -/
theorem Inv.goOn {t : State} {d : Word} (h : Inv t) (hs : s.cfg.wf) (hat : AtInstruction s)
    (hd : d.toNat ≤ 4 := by decide) (hwait : t.wait = s.wait := by rfl) (hpc : t.pc = s.pc := by rfl) :
    Inv (t.setPc (t.pc + d)) :=
  h.setPc (hwait.trans hat.wait) (by rw [hpc]; exact (pc_add_le hs hat d hd).trans (by decide))

theorem storeAtIndex_inv (h : Inv s) (hat : AtInstruction s) (bs : List Byte) (w : Word) :
    ∃ t, storeAtIndex bs w s = .next t ∧ Inv t := by
  by_cases hspan : spanExists (dataAddress s) bs.length
  · exact ⟨_, storeAtIndex_of_span hspan, (h.setMem hspan).goOn h.cfg hat⟩
  · exact ⟨_, storeAtIndex_of_not_span hspan, h.endRun hat.wait _⟩

theorem ret_inv (h : Inv s) (hat : AtInstruction s) : ∃ t, exec .ret s = .next t ∧ Inv t := by
  cases hstack : s.stack with
  | nil => exact ⟨_, exec_ret_nil hstack, h.endRun hat.wait _⟩
  | cons v rest =>
    have hlen := h.stackLength
    have hentries := h.stackEntries
    rw [hstack] at hlen hentries
    obtain ⟨hv, hrest⟩ := List.forall_mem_cons.mp hentries
    exact ⟨_, exec_ret_cons hstack, (h.setStack (Nat.le_of_succ_le hlen) hrest).setPc hat.wait (hv.trans (by decide))⟩

theorem call_inv (h : Inv s) (hat : AtInstruction s) (nnn : Addr12) : ∃ t, exec (.call nnn) s = .next t ∧ Inv t := by
  by_cases hlen : s.stack.length < 16
  · have hentries : ∀ v ∈ (s.pc + 2) :: s.stack, v.toNat ≤ 0x1000 := by
      rw [List.forall_mem_cons]
      exact ⟨(advanced_pc_toNat h.cfg hat.pc).2, h.stackEntries⟩
    refine ⟨_, exec_call_of_lt nnn hlen, (h.setStack (l := (s.pc + 2) :: s.stack) hlen hentries).setPc hat.wait ?_⟩
    rw [zext16_toNat]
    omega
  · exact ⟨_, exec_call_of_full nnn (Nat.not_lt.mp hlen), h.endRun hat.wait _⟩

/-- Every instruction keeps the invariant, by the updates it is made of. -/
theorem exec_inv (i : Instr) (h : Inv s) (hat : AtInstruction s) : ∃ t, exec i s = .next t ∧ Inv t := by
  cases i with
  | cls => exact ⟨_, rfl, (h.setDisplay _).goOn h.cfg hat⟩
  | ret => exact ret_inv h hat
  | halt => exact ⟨_, rfl, h.endRun hat.wait _⟩
  | jp nnn => exact ⟨_, rfl, h.setPc hat.wait (by rw [zext16_toNat]; omega)⟩
  | jpV0 nnn => exact ⟨_, rfl, h.setPc hat.wait (by rw [indexedTarget_toNat]; omega)⟩
  | call nnn => exact call_inv h hat nnn
  | seVxKk | sneVxKk | seVxVy | sneVxVy | skp | sknp =>
    exact ⟨_, rfl, h.goOn h.cfg hat (by split <;> decide)⟩
  | ldVxKk x | addVxKk x | ldVxVy x | orVxVy x | andVxVy x | xorVxVy x | ldVxDt x =>
    exact ⟨_, rfl, (h.setReg x _).goOn h.cfg hat⟩
  | addVxVy x | subVxVy x | subnVxVy x => exact ⟨_, rfl, ((h.setReg x _).setFlag _).goOn h.cfg hat⟩
  | shrVx x | shlVx x => exact ⟨_, rfl, ((h.setFlag _).setReg x _).goOn h.cfg hat⟩
  | rnd x => exact ⟨_, rfl, (h.countDraw.setReg x _).goOn h.cfg hat⟩
  | ldI | addIVx | ldFVx => exact ⟨_, rfl, (h.setIndex _).goOn h.cfg hat⟩
  | drw x y n =>
    by_cases hspan : spanExists (dataAddress s) n.val
    · exact ⟨_, exec_drw_of_span hspan rfl, ((h.setDisplay _).setFlag _).goOn h.cfg hat⟩
    · exact ⟨_, exec_drw_of_not_span hspan, h.endRun hat.wait _⟩
  | ldVxK x =>
    exact ⟨_, rfl, { h with waitRunning := fun _ => hat.running, waitPc := fun _ => hat.pc }⟩
  | ldDtVx => exact ⟨_, rfl, (h.setDelay _).goOn h.cfg hat⟩
  | ldStVx => exact ⟨_, rfl, (h.setSound _).goOn h.cfg hat⟩
  | ldBVx x => exact storeAtIndex_inv h hat _ _
  | ldMemVx x => exact storeAtIndex_inv h hat _ _
  | ldVxMem x =>
    by_cases hspan : spanExists (dataAddress s) (x.val + 1)
    · exact ⟨_, exec_ldVxMem_of_span x hspan, (h.setRegs _).goOn h.cfg hat⟩
    · exact ⟨_, exec_ldVxMem_of_not_span x hspan, h.endRun hat.wait _⟩

theorem unrecognized_inv (h : Inv s) (hat : AtInstruction s) (w : Word) : Inv (unrecognized w s) := by
  cases hmode : s.cfg.lenientUnknown with
  | true =>
    rw [unrecognized_of_lenient hmode]
    exact (h.emit _).goOn h.cfg hat
  | false =>
    rw [unrecognized_of_strict hmode]
    exact h.endRun hat.wait _

/-- Under the invariant the instruction agent's turn answers, and keeps it: a fetch in the program region is inside
memory. -/
theorem instructionStep_inv (h : Inv s) : ∃ t, instructionStep s = .next t ∧ Inv t := by
  obtain ⟨-, hstep⟩ | ⟨-, hwait, -, hstep⟩ | ⟨hat, hfetch, -⟩ | ⟨hat, i, hstep⟩ | ⟨hat, w, hstep⟩ :=
    instructionStep_cases s
  · exact ⟨s, hstep, h⟩
  · exact ⟨_, hstep, h.endRun hwait _⟩
  · have hend := h.cfg.2.1
    rw [fetchWord_of_le (hat.pc.trans hend)] at hfetch
    cases hfetch
  · rw [hstep]
    exact exec_inv i h hat
  · exact ⟨_, hstep, unrecognized_inv h hat w⟩

end

end Sys2Proof.Machine
end

section
/-!
PROOFS. The host's operations, all together (spec/60_exceptions.md R131, R132): which are answered, and with which states.
-/

namespace Sys2Proof.Machine

section
variable {s t : State} {op : HostOp} {r : Reply}

/-- Every state a host operation can answer with. -/
inductive HostResult (s : State) : HostOp → State → Prop
  | unchanged (op : HostOp) : HostResult s op s
  | gfx : HostResult s (.query .gfx) { s with dirty := false }
  | load (bytes : List Byte) (hspan : spanExists 0x200 bytes.length) :
      HostResult s (.load bytes) (s.setMem (Memory.writeBytes s.cfg.font s.mem 0x200 bytes))
  | run : HostResult s .run (hostRun s)
  | stop : HostResult s .stop (hostStop s)
  | reset : HostResult s .reset (hostReset s)
  | keydown (k : Key) : HostResult s (.keydown k.val) (hostKeydown k s)
  | keyup (k : Key) : HostResult s (.keyup k.val) (s.releaseKey k)

theorem hostLoad_result {bytes : List Byte} (h : hostLoad bytes s = .next (t, r)) : HostResult s (.load bytes) t := by
  obtain ⟨-, hload⟩ | ⟨-, hspan, hload⟩ | ⟨-, -, hload⟩ := hostLoad_cases bytes s <;> rw [hload] at h <;> cases h
  · exact .unchanged _
  · exact .load bytes hspan

theorem hostQuery_result {q : Query} (h : hostQuery q s = .next (t, r)) : HostResult s (.query q) t := by
  cases q with
  | v i =>
    by_cases hi : i < 16
    · rw [hostQuery_v hi] at h
      cases h
      exact .unchanged _
    · rw [hostQuery_v_of_out_of_range (Nat.not_lt.mp hi)] at h
      cases h
  | memory a n =>
    by_cases hspan : a + n ≤ 4096
    · rw [hostQuery_memory hspan] at h
      cases h
      exact .unchanged _
    · rw [hostQuery_memory_of_out_of_range (Nat.not_le.mp hspan)] at h
      cases h
  | gfx => cases h; exact .gfx
  | i | delay | sound | dirty | running => cases h; exact .unchanged _

theorem hostOp_result (h : hostOp op s = .next (t, r)) : HostResult s op t := by
  cases op with
  | load bytes => exact hostLoad_result h
  | run => cases h; exact .run
  | stop => cases h; exact .stop
  | reset => cases h; exact .reset
  | keydown code =>
    by_cases hk : code < 16
    · cases (hostOp_keydown ⟨code, hk⟩ s).symm.trans h
      exact .keydown ⟨code, hk⟩
    · rw [hostOp_keydown_of_out_of_range (Nat.not_lt.mp hk)] at h
      cases h
  | keyup code =>
    by_cases hk : code < 16
    · cases (hostOp_keyup ⟨code, hk⟩ s).symm.trans h
      exact .keyup ⟨code, hk⟩
    · rw [hostOp_keyup_of_out_of_range (Nat.not_lt.mp hk)] at h
      cases h
  | query q => exact hostQuery_result h

/-- Under R10's bounds an operation within the interface's bounds is answered. -/
theorem hostOp_of_inBounds (hcfg : s.cfg.wf) (h : op.inBounds = true) : ∃ t r, hostOp op s = .next (t, r) := by
  cases op with
  | load bytes =>
    obtain ⟨-, hload⟩ | ⟨-, -, hload⟩ | ⟨hfits, hno, -⟩ := hostLoad_cases bytes s
    · exact ⟨_, _, hload⟩
    · exact ⟨_, _, hload⟩
    · exact absurd (spanExists_of_fits hcfg hfits) hno
  | run | stop | reset => exact ⟨_, _, rfl⟩
  | keydown code => exact ⟨_, _, hostOp_keydown ⟨code, of_decide_eq_true h⟩ s⟩
  | keyup code => exact ⟨_, _, hostOp_keyup ⟨code, of_decide_eq_true h⟩ s⟩
  | query q =>
    cases q with
    | v i => exact ⟨_, _, hostQuery_v (of_decide_eq_true h)⟩
    | memory a n => exact ⟨_, _, hostQuery_memory (of_decide_eq_true h)⟩
    | i | delay | sound | gfx | dirty | running => exact ⟨_, _, rfl⟩

theorem hostOp_of_not_inBounds (h : op.inBounds = false) : ∃ e, hostOp op s = .refused e := by
  cases op with
  | load | run | stop | reset => cases h
  | keydown code => exact ⟨_, hostOp_keydown_of_out_of_range (Nat.not_lt.mp (of_decide_eq_false h))⟩
  | keyup code => exact ⟨_, hostOp_keyup_of_out_of_range (Nat.not_lt.mp (of_decide_eq_false h))⟩
  | query q =>
    cases q with
    | v i => exact ⟨_, hostQuery_v_of_out_of_range (Nat.not_lt.mp (of_decide_eq_false h))⟩
    | memory a n => exact ⟨_, hostQuery_memory_of_out_of_range (Nat.not_le.mp (of_decide_eq_false h))⟩
    | i | delay | sound | gfx | dirty | running => cases h

end

end Sys2Proof.Machine
end

section
/-!
PROOFS. What every step keeps (spec/10_state.md): the invariant, that no step under it faults, the configuration and the
output, and a key wait that nothing resolves; and the engine as constructed.
-/

namespace Sys2Proof.Machine

/-! ## The invariant through the other agents -/

section
variable {s t : State} {op : HostOp}

theorem hostRun_inv (h : Inv s) : Inv (hostRun s) := by
  cases hrun : s.running with
  | true => rwa [hostRun_of_running hrun]
  | false =>
    rw [hostRun_of_not_running hrun]
    exact { h with waitRunning := fun _ => rfl, noReason := fun _ => rfl, timers := fun _ => rfl }

theorem hostStop_inv (h : Inv s) : Inv (hostStop s) := by
  cases hrun : s.running with
  | true =>
    rw [hostStop_of_running hrun]
    exact { h with
      waitRunning := fun hne => absurd rfl hne
      waitPc := fun hne => absurd rfl hne
      noReason := fun hon => absurd hon Bool.false_ne_true
      timers := fun hon => absurd hon Bool.false_ne_true }
  | false =>
    rw [hostStop_of_not_running hrun]
    exact { h with timers := fun hon => absurd (hrun.symm.trans hon) Bool.false_ne_true }

/-- The wait stands at an instruction, so `pc` is within its bound past it. -/
theorem hostKeydown_inv (h : Inv s) (k : Key) : Inv (hostKeydown k s) := by
  cases hwait : s.wait with
  | none =>
    rw [hostKeydown_of_no_wait hwait]
    exact h.setKeys _
  | some q =>
    have hne : s.wait ≠ none := hwait ▸ Option.some_ne_none q
    have hpc := (advanced_pc_toNat h.cfg (h.waitPc hne)).2
    rw [hostKeydown_of_wait hwait]
    exact ((h.setWait_none.setKeys _).setReg q _).setPc rfl (hpc.trans (by decide))

theorem hostReset_inv (h : Inv s) : Inv (hostReset s) :=
  h.setWait_none.setPc rfl (v := 0x200) (by decide)

theorem HostResult.inv (hresult : HostResult s op t) (h : Inv s) : Inv t := by
  cases hresult with
  | unchanged => exact h
  | gfx => exact h.congr
  | load bytes hspan => exact h.setMem hspan
  | run => exact hostRun_inv h
  | stop => exact hostStop_inv h
  | reset => exact hostReset_inv h
  | keydown k => exact hostKeydown_inv h k
  | keyup k => exact h.setKeys _

theorem timerTick_inv (h : Inv s) : Inv (timerTick s) := by
  obtain ⟨-, -, htick⟩ | ⟨-, htick⟩ := timerTick_cases s <;> rw [htick]
  · exact ((h.setDelay _).setSound _).emit _
  · exact (h.setDelay _).setSound _

theorem timerStep_inv (h : Inv s) : ∃ t, timerStep s = .next t ∧ Inv t := by
  refine ⟨_, rfl, ?_⟩
  split
  · exact timerTick_inv h
  · exact h

/-- Under the invariant every turn the interface accepts is answered, and keeps it. -/
theorem agentStep_inv {m : Move} (h : Inv s) (hm : m.inBounds = true) : ∃ t, agentStep m s = .next t ∧ Inv t := by
  cases m with
  | instruction => exact instructionStep_inv h
  | tick => exact timerStep_inv h
  | host op =>
    obtain ⟨t, r, hop⟩ := hostOp_of_inBounds h.cfg hm
    exact ⟨_, hostTurnRunsTheOperation s t op r hop, ((hostOp_result hop).inv h).congr⟩

theorem agentStep_of_not_inBounds {m : Move} (hm : m.inBounds = false) : ∃ e, agentStep m s = .refused e := by
  cases m with
  | instruction | tick => cases hm
  | host op =>
    obtain ⟨e, hop⟩ := hostOp_of_not_inBounds (s := s) hm
    exact ⟨e, by rw [agentStep, hostStep, hop]⟩

/-- The turn taken off `moves` is no part of the invariant. -/
theorem takeTurn_inv (h : Inv s) : Inv s.takeTurn.2 := by
  cases hm : s.moves with
  | nil => rwa [takeTurn_nil s hm]
  | cons m rest =>
    rw [takeTurn_cons s m rest hm]
    exact h.congr

end

/-! ## What no step takes back -/

/-- The configuration is as before, and the output and the count of draws have at most grown. -/
def Grows (s t : State) : Prop := t.cfg = s.cfg ∧ s.out <+: t.out ∧ s.draws ≤ t.draws

section
variable {s t : State} {P : List Part} {op : HostOp}

theorem Grows.refl (s : State) : Grows s s := ⟨rfl, List.prefix_rfl, Nat.le_refl _⟩

theorem Frame.grows (h : Frame P s t) (hout : Part.out ∉ P) (hdraws : Part.draws ∉ P) : Grows s t :=
  ⟨h.cfg, h.out hout ▸ List.prefix_rfl, (h.draws hdraws).ge⟩

theorem exec_grows {i : Instr} (hexec : exec i s = .next t) : Grows s t := by
  obtain ⟨t', hexec', hframe, -⟩ := executes i s
  obtain rfl := Host.Outcome.next.inj (hexec'.symm.trans hexec)
  cases i with
  | rnd x kk =>
    obtain ⟨u, hu, -, hdraws, -⟩ := randomByteIsMasked s x kk
    obtain rfl := Host.Outcome.next.inj (hu.symm.trans hexec)
    exact ⟨hframe.cfg, hframe.out (by simp [mayWrite]) ▸ List.prefix_rfl, by omega⟩
  | _ => exact hframe.grows (by simp [mayWrite, lifecycleParts, regsTo]) (by simp [mayWrite, lifecycleParts, regsTo])

theorem unrecognized_grows (w : Word) (s : State) : Grows s (unrecognized w s) := by
  cases hmode : s.cfg.lenientUnknown with
  | true =>
    rw [unrecognized_of_lenient hmode]
    exact ⟨rfl, List.prefix_append .., Nat.le_refl _⟩
  | false =>
    rw [unrecognized_of_strict hmode]
    exact (frame_endRun s _).grows (by simp) (by simp)

theorem instructionStep_grows (h : instructionStep s = .next t) : Grows s t := by
  obtain ⟨-, hstep⟩ | ⟨-, -, -, hstep⟩ | ⟨-, -, hstep⟩ | ⟨-, i, hstep⟩ | ⟨-, w, hstep⟩ := instructionStep_cases s <;>
    rw [hstep] at h
  · cases h
    exact Grows.refl s
  · cases h
    exact (frame_endRun s _).grows (by simp) (by simp)
  · cases h
  · exact exec_grows h
  · cases h
    exact unrecognized_grows w s

theorem timerTick_grows (s : State) : Grows s (timerTick s) :=
  ⟨(frame_timerTick s).cfg, timerTick_out s ▸ List.prefix_append .., ((frame_timerTick s).draws (by simp)).ge⟩

theorem hostKeydown_grows (k : Key) (s : State) : Grows s (hostKeydown k s) := by
  cases hwait : s.wait with
  | none =>
    rw [hostKeydown_of_no_wait hwait]
    exact (frame_pressKey k s).grows (by simp) (by simp)
  | some r => exact (frame_hostKeydown_of_wait hwait).grows (by simp) (by simp)

theorem hostStop_grows (s : State) : Grows s (hostStop s) := by
  cases hrun : s.running with
  | true => exact (frame_hostStop_of_running hrun).grows (by simp) (by simp)
  | false => exact (frame_hostStop_of_not_running hrun).grows (by simp) (by simp)

theorem HostResult.grows (h : HostResult s op t) : Grows s t := by
  cases h with
  | unchanged => exact Grows.refl s
  | gfx => exact (frame_clearDirty s).grows (by simp) (by simp)
  | load => exact (frame_setMem s _).grows (by simp) (by simp)
  | run => exact (frame_hostRun s).grows (by simp) (by simp)
  | stop => exact hostStop_grows s
  | reset => exact (frame_hostReset s).grows (by simp) (by simp)
  | keydown k => exact hostKeydown_grows k s
  | keyup k => exact (frame_setKeys s _).grows (by simp) (by simp)

theorem agentStep_grows {m : Move} (h : agentStep m s = .next t) : Grows s t := by
  cases m with
  | instruction => exact instructionStep_grows h
  | tick =>
    cases h
    split
    · exact timerTick_grows s
    · exact Grows.refl s
  | host op =>
    rw [agentStep, hostStep] at h
    split at h
    · next hop => cases h; exact (hostOp_result hop).grows
    · cases h
    · cases h

end

/-! ## The key wait -/

section
variable {s t u : State} {P : List Part} {r : Reg}

/-- What a turn that does not resolve the key wait leaves as it is. -/
structure StillWaiting (s t : State) : Prop where
  cfg : t.cfg = s.cfg
  running : t.running = s.running
  wait : t.wait = s.wait
  pc : t.pc = s.pc
  reg : ∀ q, t.reg q = s.reg q

theorem StillWaiting.refl (s : State) : StillWaiting s s := ⟨rfl, rfl, rfl, rfl, fun _ => rfl⟩

theorem StillWaiting.trans (h : StillWaiting s t) (h' : StillWaiting t u) : StillWaiting s u where
  cfg := h'.cfg.trans h.cfg
  running := h'.running.trans h.running
  wait := h'.wait.trans h.wait
  pc := h'.pc.trans h.pc
  reg q := (h'.reg q).trans (h.reg q)

theorem Frame.stillWaiting (h : Frame P s t) (hpc : t.pc = s.pc) (hrun : Part.running ∉ P) (hwait : Part.wait ∉ P)
    (hreg : ∀ q, Part.reg q ∉ P) : StillWaiting s t :=
  ⟨h.cfg, h.running hrun, h.wait hwait, hpc, fun q => h.reg q (hreg q)⟩

/-- A move the interface accepts that cannot end a key wait: no `keydown`, no `stop()`, no `reset()`. -/
def LeavesWait (m : Move) : Prop :=
  m.inBounds = true ∧ m ≠ .host .stop ∧ m ≠ .host .reset ∧ ∀ k, m ≠ .host (.keydown k)

theorem HostResult.stillWaiting {op : HostOp} (h : HostResult s op t) (hrun : s.running = true)
    (hm : LeavesWait (.host op)) : StillWaiting s t := by
  obtain ⟨-, hstop, hreset, hkeydown⟩ := hm
  cases h with
  | unchanged => exact .refl s
  | gfx => exact (frame_clearDirty s).stillWaiting rfl (by simp) (by simp) (by simp)
  | load => exact (frame_setMem s _).stillWaiting rfl (by simp) (by simp) (by simp)
  | run => rw [hostRun_of_running hrun]; exact .refl s
  | stop => exact absurd rfl hstop
  | reset => exact absurd rfl hreset
  | keydown k => exact absurd rfl (hkeydown k)
  | keyup k => exact (frame_setKeys s _).stillWaiting rfl (by simp) (by simp) (by simp)

theorem agentStep_stillWaiting {m : Move} (hcfg : s.cfg.wf) (hrun : s.running = true) (hwait : s.wait = some r)
    (hm : LeavesWait m) : ∃ t, agentStep m s = .next t ∧ StillWaiting s t := by
  cases m with
  | instruction => exact ⟨s, instructionStep_of_disabled fun h => by simp [hwait] at h, .refl s⟩
  | tick =>
    refine ⟨_, rfl, ?_⟩
    split
    · exact (frame_timerTick s).stillWaiting (timerTick_pc s) (by simp) (by simp) (by simp)
    · exact .refl s
  | host op =>
    obtain ⟨t, reply, hop⟩ := hostOp_of_inBounds hcfg hm.1
    obtain ⟨hcfg', hrun', hwait', hpc, hreg⟩ := (hostOp_result hop).stillWaiting hrun hm
    exact ⟨_, hostTurnRunsTheOperation s t op reply hop, ⟨hcfg', hrun', hwait', hpc, hreg⟩⟩

theorem takeTurns_stillWaiting (ms : List Move) (hcfg : s.cfg.wf) (hrun : s.running = true) (hwait : s.wait = some r)
    (hms : ∀ m ∈ ms, LeavesWait m) : ∃ t, takeTurns ms s = .next t ∧ StillWaiting s t := by
  induction ms generalizing s with
  | nil => exact ⟨s, rfl, .refl s⟩
  | cons m ms ih =>
    obtain ⟨hm, hms'⟩ := List.forall_mem_cons.mp hms
    obtain ⟨t, hstep, hkept⟩ := agentStep_stillWaiting hcfg hrun hwait hm
    obtain ⟨u, hturns, hkept'⟩ :=
      ih (hkept.cfg ▸ hcfg) (hkept.running.trans hrun) (hkept.wait.trans hwait) hms'
    exact ⟨u, (takeTurns_cons_of_next ms hstep).trans hturns, hkept.trans hkept'⟩

end

/-! ## The obligations on every step -/

/-- Settles O16: a turn within the interface's bounds keeps the invariant, and one out of them has no next state. -/
theorem everyStepKeepsTheInvariant : Obligations.EveryStepKeepsTheInvariant := by
  intro s t h hstep
  cases hm : s.takeTurn.1.inBounds with
  | true =>
    obtain ⟨t', hstep', ht⟩ := agentStep_inv (takeTurn_inv h) hm
    obtain rfl := Host.Outcome.next.inj (hstep'.symm.trans hstep)
    exact ht
  | false =>
    obtain ⟨e, hstep'⟩ := agentStep_of_not_inBounds (s := s.takeTurn.2) hm
    cases hstep'.symm.trans hstep

/-- Settles O17: a turn is answered or refused, by the interface's bounds, and so never a fault. -/
theorem noStepFaultsUnderTheInvariant : Obligations.NoStepFaultsUnderTheInvariant := by
  intro s h
  have hanswered (hm : s.takeTurn.1.inBounds = true) : ∃ t, step s = .next t := by
    obtain ⟨t, hstep, -⟩ := agentStep_inv (takeTurn_inv h) hm
    exact ⟨t, hstep⟩
  have hrefused (hm : s.takeTurn.1.inBounds = false) : ∃ e, step s = .refused e := agentStep_of_not_inBounds hm
  refine ⟨fun f hfault => ?_, hanswered, hrefused⟩
  cases hm : s.takeTurn.1.inBounds with
  | true =>
    obtain ⟨t, hstep⟩ := hanswered hm
    cases hstep.symm.trans hfault
  | false =>
    obtain ⟨e, hstep⟩ := hrefused hm
    cases hstep.symm.trans hfault

/-- Settles O13: by the agent whose turn it is; taking the turn off `moves` changes none of the three. -/
theorem stepsKeepConfigurationAndGrowOutput : Obligations.StepsKeepConfigurationAndGrowOutput := by
  intro s t hstep
  cases hm : s.moves with
  | nil =>
    rw [step_of_no_moves hm] at hstep
    exact agentStep_grows hstep
  | cons m rest =>
    rw [step_of_moves hm] at hstep
    have hgrows : Grows { s with moves := rest } t := agentStep_grows hstep
    exact hgrows

/-- Settles O49: by induction on the turns. -/
theorem keyWaitBlocksUntilAKeyPress : Obligations.KeyWaitBlocksUntilAKeyPress := by
  intro ms s r hcfg hrun hwait hms
  obtain ⟨t, hturns, hkept⟩ := takeTurns_stillWaiting ms hcfg hrun hwait hms
  exact ⟨t, hturns, hkept.wait.trans hwait, hkept.running.trans hrun, hkept.pc, hkept.reg⟩

/-! ## The obligations on the engine as constructed (R36, R133) -/

/-- Settles O15: each clause at the state of construction. -/
theorem constructionMeetsTheInvariant : Obligations.ConstructionMeetsTheInvariant where
  cfg := by decide
  mem := wf_reset
  stackLength := Nat.zero_le 16
  stackEntries _ hv := absurd hv List.not_mem_nil
  pc := by decide
  waitRunning hne := absurd rfl hne
  waitPc hne := absurd rfl hne
  noReason _ := rfl
  timers hrun := absurd hrun Bool.false_ne_true

/-- Settles O14: nothing is listed in memory, so a byte reads as the font has it, or 0 past the font's 80 bytes. -/
theorem constructionState : Obligations.ConstructionState := by
  refine ⟨constructionMeetsTheInvariant.cfg, fun a _ => ?_, fun r => ?_, rfl, rfl, rfl, rfl, rfl, rfl, rfl,
    fun col row _ hrow => ?_, rfl, rfl, rfl, rfl, rfl⟩
  · have hbyte : State.reset.byteAt a = State.reset.cfg.font.getD a 0 := rfl
    rw [hbyte]
    split
    · rfl
    · next hpast => exact List.getD_eq_default _ _ (Nat.not_lt.mp hpast)
  · exact Vector.getElem_replicate ..
  · exact pix_clear State.reset col row

end Sys2Proof.Machine
end
